-- ==== Sys2Proof/Word.lean ====
section
/-! DEFINITION. The words of the FPSM: bytes, buffer indices and command words (R12, R81). -/

namespace Sys2Proof

/-- "a byte is an unsigned 8-bit value 0 to 255" (R12). -/
abbrev Byte := BitVec 8

/-- The IDX field: "an index from 0 to 511" (R79, R81). -/
abbrev Index := BitVec 9

/-- One word of the command port (R80, R81, R86). -/
abbrev CommandWord := BitVec 24

end Sys2Proof
end

