-- ==== Sys2Proof/Syntax.lean ====
section
/-! DEFINITION. The commands of the FPSM, one constructor per row of spec/opcode_table.json (R82), and the assembly
lines of R87 and R88 that stand for sequences of them. -/

namespace Sys2Proof

/-- One command, with the fields its row uses (R82). The fields a command does not use are ignored (R83), so a command
does not carry them (log 6). -/
inductive Instr where
  /-- OP 0x0 (R170). -/
  | nop
  /-- OP 0x1: process one received byte (R130). -/
  | pb (b : Byte)
  /-- OP 0x2: read one host-readable register (R171). -/
  | rdreg (i : Index)
  /-- OP 0x3: read one byte of the receive buffer (R147). -/
  | rdrx (i : Index)
  /-- OP 0x4: clear flags (R145). -/
  | clrf (m : Byte)
  /-- OP 0x5: reinitialise the receiver context (R146). -/
  | init
  /-- OP 0x6: write one payload byte (R104). -/
  | wrtx (i : Index) (b : Byte)
  /-- OP 0x7: set the payload length (R105). -/
  | setlen (b : Byte)
  /-- OP 0x8: build a frame from the loaded payload (R110). -/
  | enc
  /-- OP 0x9: read one byte of the encoded frame (R107). -/
  | rdf (i : Index)
  /-- OP 0xA: compute the checksum of the loaded payload (R106). -/
  | chk
  /-- OP 0xB, reserved (R172). -/
  | reservedB
  /-- OP 0xC, reserved (R172). -/
  | reservedC
  /-- OP 0xD, reserved (R172). -/
  | reservedD
  /-- OP 0xE, reserved (R172). -/
  | reservedE
  /-- OP 0xF, reserved (R172). -/
  | reservedF
deriving DecidableEq, Repr

/-- The register names of R36, usable in the assembly form `RDREG reg` (R87). -/
inductive RegName where
  | STATUS
  | RXLEN
  | RXCNT
  | RXRCHK
  | RXCCHK
  | TXLEN
  | FLEN_LO
  | FLEN_HI
  | CFG_MAXDATA
  | CFG_STX
  | CFG_ETX
  | CFG_ALG
deriving DecidableEq, Repr

/-- The operand `reg` of R87: "an index or one of the register names". -/
inductive RegOperand where
  | index (i : Nat)
  | name (r : RegName)
deriving DecidableEq, Repr

/-- One line of assembly: the eleven forms of R87, then the seven pseudo-instructions of R88. Operands are the numbers as
written, so a line may be ill formed (`AsmLine.wf`); the notation of the text itself is left out (log 7). -/
inductive AsmLine where
  | nop
  | pb (b : Nat)
  | rdreg (reg : RegOperand)
  | rdrx (i : Nat)
  | clrf (m : Nat)
  | init
  | wrtx (i b : Nat)
  | setlen (b : Nat)
  | enc
  | rdf (i : Nat)
  | chk
  | clrrdy
  | clrack
  | clrall
  | feed (bytes : List Nat)
  | loadtx (bytes : List Nat)
  | send (bytes : List Nat)
  /-- `ECHO`, with the FLEN that R88 says the assembler needs as a constant; which values it may have is log 7's. -/
  | echo (flen : Nat)
deriving DecidableEq, Repr

end Sys2Proof
end

