-- ==== Sys2Proof/WellFormed.lean ====
section
/-! DEFINITION. The checks on what a program writes. A value of `Instr` is well formed by its types: BYTE has 8 bits and IDX
has 9 (R81), and every value of either is a legal operand (R79; an index outside its space is answered INVALID_PARAM when
the command runs, R201). An assembly line holds numbers as written, so the checks of R87 and R88 stand here. -/

namespace Sys2Proof

/-- A byte expression denotes 0 to 255 (R79, R87). -/
def byteOk (b : Nat) : Bool := decide (b < 256)

/-- An index is a 9-bit number, 0 to 511 (R79, R87). -/
def indexOk (i : Nat) : Bool := decide (i < 512)

def RegOperand.wf : RegOperand → Bool
  | .index i => indexOk i
  | .name _ => true

/-- `LOADTX b0, ..., b(n-1)` names at least one byte, every byte is a byte, and n is the operand of `SETLEN n`, a byte (R88). -/
def payloadOk (bytes : List Nat) : Bool :=
  decide (1 ≤ bytes.length) && byteOk bytes.length && bytes.all byteOk

/-- The operands of an assembly line fit the fields of R81. DESIGN CHOICE (log 7): R88 does not say which lengths ECHO takes; the model takes
every number that fits IDX, 0 to 511, so also the lengths that no frame has, and ECHO of 0 stands for no words. FEED and LOADTX of no
byte are refused. -/
def AsmLine.wf : AsmLine → Bool
  | .nop => true
  | .pb b => byteOk b
  | .rdreg r => r.wf
  | .rdrx i => indexOk i
  | .clrf m => byteOk m
  | .init => true
  | .wrtx i b => indexOk i && byteOk b
  | .setlen b => byteOk b
  | .enc => true
  | .rdf i => indexOk i
  | .chk => true
  | .clrrdy => true
  | .clrack => true
  | .clrall => true
  | .feed bytes => decide (1 ≤ bytes.length) && bytes.all byteOk
  | .loadtx bytes => payloadOk bytes
  | .send bytes => payloadOk bytes
  | .echo flen => indexOk flen

end Sys2Proof
end

