-- ==== Sys2Proof/Decode.lean ====
section
/-! DEFINITION. The decoder of command words (R81 to R83), the encoder (R81, R87), the opcode table as data, and the
assembler of R87 and R88. -/

namespace Sys2Proof

/-! ### Fields (R81) -/

def opField (w : CommandWord) : BitVec 4 := w.extractLsb' 20 4
def rsvField (w : CommandWord) : BitVec 3 := w.extractLsb' 17 3
def idxField (w : CommandWord) : Index := w.extractLsb' 8 9
def byteField (w : CommandWord) : Byte := w.extractLsb' 0 8

/-- `{OP, RSV, IDX, BYTE}` with RSV = 000 (R81, R83). -/
def commandWord (op : BitVec 4) (idx : Index) (byte : Byte) : CommandWord := op ++ (0#3) ++ idx ++ byte

/-! ### The decoder (R83) -/

/-- Why a word is no command of R82: its RSV field is not 000 (R83). -/
inductive DecodeReject where
  | reservedField (op : BitVec 4) (rsv : BitVec 3)
deriving DecidableEq, Repr

/-- The command of R82 for an OP value. The sixteen values of OP are the sixteen rows; 0xF is the last. -/
def decodeOp (op : BitVec 4) (idx : Index) (byte : Byte) : Instr :=
  match op.toNat with
  | 0x0 => .nop
  | 0x1 => .pb byte
  | 0x2 => .rdreg idx
  | 0x3 => .rdrx idx
  | 0x4 => .clrf byte
  | 0x5 => .init
  | 0x6 => .wrtx idx byte
  | 0x7 => .setlen byte
  | 0x8 => .enc
  | 0x9 => .rdf idx
  | 0xA => .chk
  | 0xB => .reservedB
  | 0xC => .reservedC
  | 0xD => .reservedD
  | 0xE => .reservedE
  | _ => .reservedF

/-- Decoding is total (R83). The rows of OP 0xB to 0xF match whatever RSV holds; a word of another OP with RSV not 000
matches no row and is rejected by name: the step gives it the effect of ILLEGAL (`execIllegalWord`, R172). -/
def decode (w : CommandWord) : Except DecodeReject Instr :=
  if (opField w).toNat < 0xB ∧ rsvField w ≠ 0#3 then .error (.reservedField (opField w) (rsvField w))
  else .ok (decodeOp (opField w) (idxField w) (byteField w))

/-! ### The encoder (R81, R87) -/

/-- "The assembler writes 0 into every unused field and into RSV" (R87). The word of a reserved row has its OP alone. -/
def encode : Instr → CommandWord
  | .nop => commandWord 0x0 0 0
  | .pb b => commandWord 0x1 0 b
  | .rdreg i => commandWord 0x2 i 0
  | .rdrx i => commandWord 0x3 i 0
  | .clrf m => commandWord 0x4 0 m
  | .init => commandWord 0x5 0 0
  | .wrtx i b => commandWord 0x6 i b
  | .setlen b => commandWord 0x7 0 b
  | .enc => commandWord 0x8 0 0
  | .rdf i => commandWord 0x9 i 0
  | .chk => commandWord 0xA 0 0
  | .reservedB => commandWord 0xB 0 0
  | .reservedC => commandWord 0xC 0 0
  | .reservedD => commandWord 0xD 0 0
  | .reservedE => commandWord 0xE 0 0
  | .reservedF => commandWord 0xF 0 0

/-! ### The opcode table as data -/

/-- One row of spec/opcode_table.json: a word `w` is the row's when `w` masked by `mask` is `value`. -/
structure OpcodeRow where
  mnemonic : String
  value : CommandWord
  mask : CommandWord
deriving DecidableEq, Repr

def OpcodeRow.selects (r : OpcodeRow) (w : CommandWord) : Bool := decide (w &&& r.mask = r.value)

/-- The row of spec/opcode_table.json that a command stands for. -/
def Instr.row : Instr → OpcodeRow
  | .nop => ⟨"NOP", 0x000000, 0xFE0000⟩
  | .pb _ => ⟨"PB", 0x100000, 0xFE0000⟩
  | .rdreg _ => ⟨"RDREG", 0x200000, 0xFE0000⟩
  | .rdrx _ => ⟨"RDRX", 0x300000, 0xFE0000⟩
  | .clrf _ => ⟨"CLRF", 0x400000, 0xFE0000⟩
  | .init => ⟨"INIT", 0x500000, 0xFE0000⟩
  | .wrtx _ _ => ⟨"WRTX", 0x600000, 0xFE0000⟩
  | .setlen _ => ⟨"SETLEN", 0x700000, 0xFE0000⟩
  | .enc => ⟨"ENC", 0x800000, 0xFE0000⟩
  | .rdf _ => ⟨"RDF", 0x900000, 0xFE0000⟩
  | .chk => ⟨"CHK", 0xA00000, 0xFE0000⟩
  | .reservedB => ⟨"RESERVED_B", 0xB00000, 0xF00000⟩
  | .reservedC => ⟨"RESERVED_C", 0xC00000, 0xF00000⟩
  | .reservedD => ⟨"RESERVED_D", 0xD00000, 0xF00000⟩
  | .reservedE => ⟨"RESERVED_E", 0xE00000, 0xF00000⟩
  | .reservedF => ⟨"RESERVED_F", 0xF00000, 0xF00000⟩

/-- The sixteen rows, in the table's order. -/
def opcodeTable : List OpcodeRow :=
  [Instr.nop.row, (Instr.pb 0).row, (Instr.rdreg 0).row, (Instr.rdrx 0).row, (Instr.clrf 0).row, Instr.init.row,
   (Instr.wrtx 0 0).row, (Instr.setlen 0).row] ++
  [Instr.enc.row, (Instr.rdf 0).row, Instr.chk.row, Instr.reservedB.row, Instr.reservedC.row, Instr.reservedD.row,
   Instr.reservedE.row, Instr.reservedF.row]

/-- The bits of a command's word that select it: its row's fixed bits and the fields it uses; every other bit is ignored
(R83: "Any value there selects the same command with the same effect"). -/
def Instr.usedBits : Instr → CommandWord
  | .nop | .init | .enc | .chk => 0xFE0000
  | .pb _ | .clrf _ | .setlen _ => 0xFE00FF
  | .rdreg _ | .rdrx _ | .rdf _ => 0xFFFF00
  | .wrtx _ _ => 0xFFFFFF
  | .reservedB | .reservedC | .reservedD | .reservedE | .reservedF => 0xF00000

/-! ### The host's numbering -/

/-- The word on the port whose bits are `w`; bits at `nbits` and above are 0. A command word is 24 bits (R86). -/
def tableWord (nbits w : Nat) : CommandWord := BitVec.ofNat 24 (w % 2 ^ nbits)

/-- What the decoder reads from a word numbered as spec/opcode_table.json numbers it. -/
def decodeTableWord (nbits w : Nat) : Option Instr :=
  match decode (tableWord nbits w) with
  | .ok i => some i
  | .error _ => none

/-! ### The assembler (R87, R88) -/

/-- The index of a named register (R36). -/
def RegName.index : RegName → Nat
  | .STATUS => 0x000
  | .RXLEN => 0x001
  | .RXCNT => 0x002
  | .RXRCHK => 0x003
  | .RXCCHK => 0x004
  | .TXLEN => 0x005
  | .FLEN_LO => 0x006
  | .FLEN_HI => 0x007
  | .CFG_MAXDATA => 0x008
  | .CFG_STX => 0x009
  | .CFG_ETX => 0x00A
  | .CFG_ALG => 0x00B

def RegOperand.value : RegOperand → Index
  | .index i => BitVec.ofNat 9 i
  | .name r => BitVec.ofNat 9 r.index

/-- `WRTX k, b0`, `WRTX k+1, b1`, ... (R88, LOADTX). -/
def wrtxFrom : Nat → List Nat → List Instr
  | _, [] => []
  | k, b :: bs => .wrtx (BitVec.ofNat 9 k) (BitVec.ofNat 8 b) :: wrtxFrom (k + 1) bs

/-- The expansion of LOADTX (R88). -/
def loadPayload (bytes : List Nat) : List Instr := wrtxFrom 0 bytes ++ [.setlen (BitVec.ofNat 8 bytes.length)]

/-- The commands that an assembly line stands for (R87, R88). -/
def AsmLine.expand : AsmLine → List Instr
  | .nop => [.nop]
  | .pb b => [.pb (BitVec.ofNat 8 b)]
  | .rdreg r => [.rdreg r.value]
  | .rdrx i => [.rdrx (BitVec.ofNat 9 i)]
  | .clrf m => [.clrf (BitVec.ofNat 8 m)]
  | .init => [.init]
  | .wrtx i b => [.wrtx (BitVec.ofNat 9 i) (BitVec.ofNat 8 b)]
  | .setlen b => [.setlen (BitVec.ofNat 8 b)]
  | .enc => [.enc]
  | .rdf i => [.rdf (BitVec.ofNat 9 i)]
  | .chk => [.chk]
  | .clrrdy => [.clrf 0x01]
  | .clrack => [.clrf 0x02]
  | .clrall => [.clrf 0x03]
  | .feed bytes => bytes.map fun b => .pb (BitVec.ofNat 8 b)
  | .loadtx bytes => loadPayload bytes
  | .send bytes => loadPayload bytes ++ [.enc]
  | .echo flen => (List.range flen).map fun i => .rdf (BitVec.ofNat 9 i)

/-- The words of a well-formed assembly line; an ill-formed line has none. -/
def assemble (a : AsmLine) : Option (List CommandWord) := if a.wf then some (a.expand.map encode) else none

end Sys2Proof
end

