-- ==== Sys2Proof/Config.lean ====
section
/-! DEFINITION. What an implementation fixes when the block is built (R7 to R10), and the one value the spec leaves
free (93_implementation_defined.md U1). -/

namespace Sys2Proof

/-- The checksum fold of the build, `CHK_ALG` (R10). -/
inductive ChkAlg where
  | xor
  | sum8
deriving DecidableEq, Repr

/-- The three buffers, each an index space of its own (R50). The fourth space of R50, REG, is a view of the registers
(R36) and holds no storage. -/
inductive Space where
  | rxBuf
  | txBuf
  | fBuf
deriving DecidableEq, Repr

/-- The build parameters of R7 to R10. A capacity outside 1 to 255 cannot be built (R7; U4: "A value outside that range is
refused"). No constraint stands between `stx` and `etx` (R9). -/
structure Config where
  /-- `MAX_DATA`, the payload capacity in bytes (R7). -/
  maxData : Nat
  /-- `STX_VAL`, the start-of-frame byte (R8). -/
  stx : Byte
  /-- `ETX_VAL`, the end-of-frame byte (R9). -/
  etx : Byte
  /-- `CHK_ALG` (R10). -/
  alg : ChkAlg
  maxData_pos : 1 ≤ maxData
  maxData_le : maxData ≤ 255
deriving DecidableEq, Repr

/-- The default build: MAX_DATA 255 (R7), STX_VAL 0x02 (R8), ETX_VAL 0x03 (R9), XOR (R10). -/
def Config.standard : Config where
  maxData := 255
  stx := 0x02
  etx := 0x03
  alg := .xor
  maxData_pos := by decide
  maxData_le := by decide

/-- The byte that entry `i` of a buffer holds while nothing has written it since the reset numbered `resets`: `any value`
(R30, R32, R34, U1). A FREE VALUE: it has no body, so a proof can assume nothing about it but that the same entry read
twice gives the same byte (U1), and every reset draws anew (log 4). -/
opaque Config.unwrittenByte (resets : Nat) (space : Space) (i : Nat) : Byte

end Sys2Proof
end

