-- ==== Sys2Proof/Machine/Checksum.lean ====
section
/-! DEFINITION. The checksum unit (R100 to R102) and the wire frame that it protects (R70). -/

namespace Sys2Proof.Machine

/-- `chk_fold(acc, b)`: XOR (R100), or the sum modulo 256 in a SUM8 build (R101, which the spec marks as its own reading). -/
def chkFold : ChkAlg → Byte → Byte → Byte
  | .xor, acc, b => acc ^^^ b
  | .sum8, acc, b => acc + b

/-- `checksum`: the left fold over the bytes from 0x00 (R102). -/
def checksum (alg : ChkAlg) (bytes : List Byte) : Byte := bytes.foldl (chkFold alg) 0x00

/-- The frame of a payload: `STX(1) | LEN(1) | DATA(LEN) | CHK(1) | ETX(1)`, with CHK over DATA only and no escaping
(R70, R73, R74). -/
def wireFrame (c : Config) (payload : List Byte) : List Byte :=
  c.stx :: BitVec.ofNat 8 payload.length :: payload ++ [checksum c.alg payload, c.etx]

end Sys2Proof.Machine
end

