-- ==== Sys2Proof/Machine/State.lean ====
section
/-! DEFINITION. The state of one FPSM instance (R20), the response a step gives (R84, R85), and the reasons a step can
stop. -/

namespace Sys2Proof.Machine

/-- The seven receiver states, in the order of their encodings (R77). Encoding 7 is never held, so it has no constructor
(R23, U2, D35). -/
inductive RxState where
  | waitStart
  | waitLength
  | waitData
  | waitChecksum
  | waitEnd
  | messageReady
  | messageError
deriving DecidableEq, Repr

/-- The RESULT of a response (R84). Codes 6 and 7 are never produced (U13). -/
inductive Result where
  | waiting
  | success
  | error
  | invalidParam
  | ok
  | illegalCmd
deriving DecidableEq, Repr

/-- "Every command produces exactly one response, {RESULT[2:0], RDATA[7:0]}" (R85). -/
structure Response where
  result : Result
  rdata : Byte
deriving DecidableEq, Repr

/-- What may stand at the port: a command word (R80), or the reset input `rst`, "applied between steps" (R230). -/
inductive PortInput where
  | command (w : CommandWord)
  | rst
deriving DecidableEq, Repr

/-- The contents of one buffer: the bytes written since reset, with their indices, in strictly rising order (`Memory.wf`).
An index that is not listed has not been written since reset. -/
abbrev Memory := List Host.Cell

/-- One FPSM instance. The fields from `rxState` to `fBuf` are the architectural state of R20. The others are the model's
own: the build (`cfg`, log 1), the count of resets (`resets`, log 4), the inputs waiting at the port (`port`, log 2), and
the response that the last step gave out (`resp`, log 3). -/
structure State where
  /-- The build parameters (R7 to R10); no step changes them. -/
  cfg : Config
  /-- RXSTATE (R23). -/
  rxState : RxState
  /-- RXLEN (R24). -/
  rxLen : Byte
  /-- RXCNT (R25). -/
  rxCnt : Byte
  /-- RXRCHK (R26). -/
  rxRchk : Byte
  /-- RXCCHK (R29). -/
  rxCchk : Byte
  /-- FRAME_READY (R28). -/
  frameReady : Bool
  /-- SEND_ACK (R27). -/
  sendAck : Bool
  /-- RXBUF (R30). -/
  rxBuf : Memory
  /-- TXLEN (R31). -/
  txLen : Byte
  /-- TXBUF (R32). -/
  txBuf : Memory
  /-- FLEN, 9 bits (R33). -/
  fLen : BitVec 9
  /-- FBUF (R34). -/
  fBuf : Memory
  /-- How many resets have been taken; only the free value of an unwritten entry depends on it. -/
  resets : Nat
  /-- The inputs waiting at the port, the next one first. -/
  port : List PortInput
  /-- The response of the last step; an output, read by no command (R20, R85). -/
  resp : Option Response
deriving DecidableEq, Repr

/-- Why a step stops. -/
inductive Fault where
  /-- An access to an entry that the space does not have, for which R51 defines nothing. Raised by `memRead` (under RDF) and
  `memWrite` (under PB). Safe: no state that a run reaches raises it (log 5). -/
  | noSuchEntry (space : Space) (i : Nat)
deriving DecidableEq, Repr

/-- Why a step has no meaning. No arm of `exec` refuses. -/
inductive Refusal where
  /-- The command named has no meaning in the model. Raised by nothing: every command has its meaning. Safe. -/
  | notModelled (mnemonic : String)
deriving DecidableEq, Repr

/-- The state of a block of build `c` right after power-on (R230, R231): every register at its reset value, nothing
written in any buffer, nothing at the port. -/
def State.powerOn (c : Config) : State where
  cfg := c
  rxState := .waitStart
  rxLen := 0x00
  rxCnt := 0x00
  rxRchk := 0x00
  rxCchk := 0x00
  frameReady := false
  sendAck := false
  rxBuf := []
  txLen := 0x00
  txBuf := []
  fLen := 0
  fBuf := []
  resets := 0
  port := []
  resp := none

/-- The machine right after reset, in the default build (R231; R7 to R10). -/
def State.reset : State := State.powerOn Config.standard

end Sys2Proof.Machine
end

