-- ==== Sys2Proof/Machine/Flags.lean ====
section
/-! DEFINITION. The codes, flag bits and level outputs of the FPSM (R36, R38, R77, R84, R85, R136). -/

namespace Sys2Proof

/-- The CFG_ALG register: 0 = XOR, 1 = SUM8 (R36). -/
def ChkAlg.code : ChkAlg → Byte
  | .xor => 0x00
  | .sum8 => 0x01

end Sys2Proof

namespace Sys2Proof.Machine

/-- The encoding of RXSTATE (R77). -/
def RxState.code : RxState → BitVec 3
  | .waitStart => 0
  | .waitLength => 1
  | .waitData => 2
  | .waitChecksum => 3
  | .waitEnd => 4
  | .messageReady => 5
  | .messageError => 6

/-- The code of a RESULT (R84). -/
def Result.code : Result → BitVec 3
  | .waiting => 0
  | .success => 1
  | .error => 2
  | .invalidParam => 3
  | .ok => 4
  | .illegalCmd => 5

/-- The 11-bit response: "RESULT in bits [10:8] and RDATA in bits [7:0]" (R85). -/
def Response.word (r : Response) : BitVec 11 := r.result.code ++ r.rdata

/-- The RDATA of an ERROR: `{0b000000, bad_chk, bad_etx}` (R136). -/
def errorCause (badChk badEtx : Bool) : Byte := 0#6 ++ BitVec.ofBool badChk ++ BitVec.ofBool badEtx

/-- The STATUS register: `{0b000, SEND_ACK, FRAME_READY, RXSTATE[2:0]}` (R36, R171). -/
def State.statusByte (s : State) : Byte :=
  0#3 ++ BitVec.ofBool s.sendAck ++ BitVec.ofBool s.frameReady ++ s.rxState.code

/-- The flags after `CLRF m`: a mask bit that is set clears its flag, and nothing sets one (R145). -/
def clearedFlag (flag : Bool) (maskBit : Bool) : Bool := if maskBit then false else flag

/-! ### Level outputs (R38) -/

def State.stateO (s : State) : BitVec 3 := s.rxState.code
def State.frameReadyO (s : State) : Bool := s.frameReady
def State.sendAckO (s : State) : Bool := s.sendAck
def State.msgReadyO (s : State) : Bool := decide (s.rxState = .messageReady)
def State.msgErrorO (s : State) : Bool := decide (s.rxState = .messageError)

end Sys2Proof.Machine
end

