-- ==== Sys2Proof/Machine/Ops.lean ====
section
/-! DEFINITION. The named operations over buffers, the response and reset, on which every meaning is written. The FPSM has no
exception to take and none to return from (R200, R205): an error is a RESULT code, given by `respond`. -/

namespace Sys2Proof.Machine

/-! ### Memory in canonical form -/

/-- The canonical form of a buffer of `size` entries: indices strictly rising, each inside the buffer. -/
abbrev Memory.wf (size : Nat) (m : Memory) : Prop := m.Pairwise (fun c d => c.1 < d.1) ∧ ∀ c ∈ m, c.1 < size

/-- The byte written at an index since reset; `none` is what an unlisted index reads as: nothing written (log 4). -/
def Memory.lookup (i : Nat) : Memory → Option Byte
  | [] => none
  | (a, v) :: m => if a = i then some v else Memory.lookup i m

/-- `MemWrite` on the list: the entry at `i` becomes `v`, in its place in the order (R51). -/
def Memory.write (i : Nat) (v : Byte) : Memory → Memory
  | [] => [(i, v)]
  | (a, w) :: m => if i < a then (i, v) :: (a, w) :: m else if a = i then (i, v) :: m else (a, w) :: Memory.write i v m

/-- The bytes `vs` written at `i`, `i + 1`, ... -/
def Memory.writeAll : Nat → List Byte → Memory → Memory
  | _, [], m => m
  | i, v :: vs, m => Memory.writeAll (i + 1) vs (Memory.write i v m)

end Sys2Proof.Machine

namespace Sys2Proof

/-- `MAX_FRAME = MAX_DATA + 4`, the size of FBUF (R11). -/
def Config.maxFrame (c : Config) : Nat := c.maxData + 4

/-- The number of entries of a buffer (R50). -/
def Config.size (c : Config) : Space → Nat
  | .rxBuf => c.maxData
  | .txBuf => c.maxData
  | .fBuf => c.maxFrame

end Sys2Proof

namespace Sys2Proof.Machine

/-! ### The buffers of a state (R50) -/

/-- The contents of a buffer. -/
def State.buf (s : State) : Space → Memory
  | .rxBuf => s.rxBuf
  | .txBuf => s.txBuf
  | .fBuf => s.fBuf

def State.setBuf (s : State) (space : Space) (m : Memory) : State :=
  match space with
  | .rxBuf => { s with rxBuf := m }
  | .txBuf => { s with txBuf := m }
  | .fBuf => { s with fBuf := m }

/-- The byte that an entry holds: what was last written, or the free value where nothing has been written since reset (U1,
U15). -/
def State.byteAt (s : State) (space : Space) (i : Nat) : Byte :=
  (Memory.lookup i (s.buf space)).getD (Config.unwrittenByte s.resets space i)

/-- The `n` bytes of a buffer from entry `start`. -/
def State.bytes (s : State) (space : Space) (start n : Nat) : List Byte :=
  (List.range n).map fun k => s.byteAt space (start + k)

/-- Entry `i` of a buffer becomes `v`, and no other entry changes (R51). -/
def State.writeByte (s : State) (space : Space) (i : Nat) (v : Byte) : State :=
  s.setBuf space (Memory.write i v (s.buf space))

/-- The entries from `i` on become the bytes `vs`. -/
def State.writeBytes (s : State) (space : Space) (i : Nat) (vs : List Byte) : State :=
  s.setBuf space (Memory.writeAll i vs (s.buf space))

/-- `MemRead(space, i, 1)`, "defined only for 0 <= i < size(space)" (R51); outside, the model faults (log 5). -/
def memRead (space : Space) (i : Nat) (s : State) : Except Fault Byte :=
  if i < s.cfg.size space then .ok (s.byteAt space i) else .error (.noSuchEntry space i)

/-- `MemWrite(space, i, 1, v)`, "defined only for 0 <= i < size(space)" (R51); outside, the model faults (log 5). -/
def memWrite (space : Space) (i : Nat) (v : Byte) (s : State) : Except Fault State :=
  if i < s.cfg.size space then .ok (s.writeByte space i v) else .error (.noSuchEntry space i)

/-! ### The response (R85) -/

/-- `respond(result, rdata)` (R13): the response of the step, given with the state the command leaves. -/
def respond (result : Result) (rdata : Byte) (s : State) : Host.Outcome State Fault Refusal :=
  .next { s with resp := some ⟨result, rdata⟩ }

/-- "An out-of-range parameter gives INVALID_PARAM and the command has no effect" (R202). -/
def invalidParam (s : State) : Host.Outcome State Fault Refusal := respond .invalidParam 0x00 s

/-- ILLEGAL: `respond(ILLEGAL_CMD, 0x00)`, "no state written" (R172). -/
def illegalCommand (s : State) : Host.Outcome State Fault Refusal := respond .illegalCmd 0x00 s

/-- The RDATA of a read whose index the command has checked. -/
def respondRead (space : Space) (i : Nat) (s : State) : Host.Outcome State Fault Refusal :=
  match memRead space i s with
  | .ok v => respond .ok v s
  | .error f => .fault f

/-! ### Between commands -/

/-- The reset input `rst` (R230, R231): every register takes its reset value, the buffers hold `any value` again (R30, R32,
R34; log 4), the build is not affected, and no response is given. -/
def State.takeReset (s : State) : State :=
  { State.powerOn s.cfg with resets := s.resets + 1, port := s.port }

/-- A step with nothing at the port: no command, so no response, and the state is unchanged (R220). -/
def State.idle (s : State) : State := { s with resp := none }

/-- The state with a command word presented at the head of the port. -/
def State.present (s : State) (w : CommandWord) : State := { s with port := .command w :: s.port }

end Sys2Proof.Machine
end

