-- ==== Sys2Proof/Machine/Operands.lean ====
section
/-! DEFINITION. The operands of the commands: the checks on lengths, the register file that RDREG reads, and the payload
loaded into the framer. Every operand is unsigned and is used without scaling or sign extension (R79). -/

namespace Sys2Proof.Machine

/-- A length that the receiver accepts and the framer encodes: 1 to MAX_DATA (R72, R133, R110). -/
def legalLength (c : Config) (n : Nat) : Bool := decide (1 ≤ n ∧ n ≤ c.maxData)

/-- The register map of R36; an index from 0x00C on is reserved and has no register. The CFG registers are hard-wired. -/
def State.readReg (s : State) (i : Index) : Option Byte :=
  match i.toNat with
  | 0x000 => some s.statusByte
  | 0x001 => some s.rxLen
  | 0x002 => some s.rxCnt
  | 0x003 => some s.rxRchk
  | 0x004 => some s.rxCchk
  | 0x005 => some s.txLen
  | 0x006 => some (s.fLen.extractLsb' 0 8)
  | 0x007 => some (BitVec.setWidth 8 (s.fLen.extractLsb' 8 1))
  | 0x008 => some (BitVec.ofNat 8 s.cfg.maxData)
  | 0x009 => some s.cfg.stx
  | 0x00A => some s.cfg.etx
  | 0x00B => some s.cfg.alg.code
  | _ => none

/-- The payload loaded for ENC and CHK: TXBUF[0..TXLEN) (R106, R110). -/
def State.payload (s : State) : List Byte := s.bytes .txBuf 0 s.txLen.toNat

end Sys2Proof.Machine
end

