-- ==== Sys2Proof/Machine/Framer.lean ====
section
/-! DEFINITION. The framer (40_codec.md): WRTX, SETLEN, CHK, RDF and ENC. None of them touches the receiver context. -/

namespace Sys2Proof.Machine

/-- `WRTX i, b` (R104). -/
def execWrtx (i : Index) (b : Byte) (s : State) : Host.Outcome State Fault Refusal :=
  if s.cfg.maxData ≤ i.toNat then invalidParam s
  else
    match memWrite .txBuf i.toNat b s with
    | .ok t => respond .ok 0x00 t
    | .error f => .fault f

/-- `SETLEN b` (R105). No length is refused here. -/
def execSetlen (b : Byte) (s : State) : Host.Outcome State Fault Refusal :=
  respond .ok 0x00 { s with txLen := b }

/-- `CHK` (R106). Unlike ENC it accepts length 0. -/
def execChk (s : State) : Host.Outcome State Fault Refusal :=
  if s.cfg.maxData < s.txLen.toNat then invalidParam s else respond .ok (checksum s.cfg.alg s.payload) s

/-- `RDF i` (R107). -/
def execRdf (i : Index) (s : State) : Host.Outcome State Fault Refusal :=
  if s.fLen.toNat ≤ i.toNat then invalidParam s else respondRead .fBuf i.toNat s

/-- `ENC` (R110): the frame of the payload goes to FBUF[0..TXLEN+4); the entries above keep their bytes. -/
def execEnc (s : State) : Host.Outcome State Fault Refusal :=
  if legalLength s.cfg s.txLen.toNat then
    respond .ok (checksum s.cfg.alg s.payload)
      { s.writeBytes .fBuf 0 (wireFrame s.cfg s.payload) with fLen := BitVec.setWidth 9 s.txLen + 4 }
  else invalidParam s

end Sys2Proof.Machine
end

