-- ==== Sys2Proof/Machine/HostAccess.lean ====
section
/-! DEFINITION. Host access (42_host.md): NOP and RDREG. -/

namespace Sys2Proof.Machine

/-- `NOP` (R170). -/
def execNop (s : State) : Host.Outcome State Fault Refusal := respond .ok 0x00 s

/-- `RDREG reg` (R171). Reading a register changes nothing; a reserved index gives INVALID_PARAM. -/
def execRdreg (i : Index) (s : State) : Host.Outcome State Fault Refusal :=
  match s.readReg i with
  | some v => respond .ok v s
  | none => invalidParam s

end Sys2Proof.Machine
end

