-- ==== Sys2Proof/Machine/Receiver.lean ====
section
/-! DEFINITION. The receiver (41_receiver.md): PB with one procedure per row of the transition table, and the receiver-side
commands CLRF, INIT and RDRX. -/

namespace Sys2Proof.Machine

/-- `pb_wait_start(b)` (R132). RXLEN, RXRCHK, RXBUF and SEND_ACK are kept. -/
def pbWaitStart (b : Byte) (s : State) : Host.Outcome State Fault Refusal :=
  if b = s.cfg.stx then
    respond .waiting 0x00 { s with rxCnt := 0, rxCchk := 0x00, frameReady := false, rxState := .waitLength }
  else respond .waiting 0x00 { s with rxState := .waitStart }

/-- `pb_wait_length(b)` (R133). A length that is rejected is dropped silently and is not written. -/
def pbWaitLength (b : Byte) (s : State) : Host.Outcome State Fault Refusal :=
  if legalLength s.cfg b.toNat then respond .waiting 0x00 { s with rxLen := b, rxState := .waitData }
  else respond .waiting 0x00 { s with rxState := .waitStart }

/-- `pb_wait_data(b)` (R134). The count is added and compared as an integer (R12). -/
def pbWaitData (b : Byte) (s : State) : Host.Outcome State Fault Refusal :=
  match memWrite .rxBuf s.rxCnt.toNat b s with
  | .error f => .fault f
  | .ok t =>
    respond .waiting 0x00
      { t with
        rxCchk := chkFold s.cfg.alg s.rxCchk b
        rxCnt := BitVec.ofNat 8 (s.rxCnt.toNat + 1)
        rxState := if s.rxCnt.toNat + 1 = s.rxLen.toNat then .waitChecksum else .waitData }

/-- `pb_wait_checksum(b)` (R135). -/
def pbWaitChecksum (b : Byte) (s : State) : Host.Outcome State Fault Refusal :=
  respond .waiting 0x00 { s with rxRchk := b, rxState := .waitEnd }

/-- `pb_wait_end(b)` (R136): SUCCESS when the byte is ETX and the checksums agree, ERROR with its causes otherwise. -/
def pbWaitEnd (b : Byte) (s : State) : Host.Outcome State Fault Refusal :=
  let badEtx := decide (b ≠ s.cfg.etx)
  let badChk := decide (s.rxRchk ≠ s.rxCchk)
  if badEtx || badChk then respond .error (errorCause badChk badEtx) { s with rxState := .messageError }
  else respond .success s.rxLen { s with frameReady := true, sendAck := true, rxState := .messageReady }

/-- `PB b` (R130). A terminal marker is consumed: its byte is processed as WaitStart processes it (R131). -/
def execPb (b : Byte) (s : State) : Host.Outcome State Fault Refusal :=
  match s.rxState with
  | .waitStart => pbWaitStart b s
  | .messageReady => pbWaitStart b s
  | .messageError => pbWaitStart b s
  | .waitLength => pbWaitLength b s
  | .waitData => pbWaitData b s
  | .waitChecksum => pbWaitChecksum b s
  | .waitEnd => pbWaitEnd b s

/-- `CLRF m` (R145). Bits 7 to 2 of the mask are ignored. -/
def execClrf (m : Byte) (s : State) : Host.Outcome State Fault Refusal :=
  respond .ok 0x00
    { s with
      frameReady := clearedFlag s.frameReady (m.getLsbD 0)
      sendAck := clearedFlag s.sendAck (m.getLsbD 1) }

/-- `INIT` (R146). RXBUF and the framer context are kept. -/
def execInit (s : State) : Host.Outcome State Fault Refusal :=
  respond .ok 0x00
    { s with
      rxState := .waitStart
      rxLen := 0x00
      rxCnt := 0x00
      rxRchk := 0x00
      rxCchk := 0x00
      frameReady := false
      sendAck := false }

/-- `RDRX i` (R147). Neither FRAME_READY nor RXLEN is checked. -/
def execRdrx (i : Index) (s : State) : Host.Outcome State Fault Refusal :=
  if s.cfg.maxData ≤ i.toNat then invalidParam s else respondRead .rxBuf i.toNat s

end Sys2Proof.Machine
end

