-- ==== Sys2Proof/Machine/Reserved.lean ====
section
/-! DEFINITION. ILLEGAL (R172): the five reserved rows, and the words that match no row. -/

namespace Sys2Proof.Machine

def execReservedB (s : State) : Host.Outcome State Fault Refusal := illegalCommand s
def execReservedC (s : State) : Host.Outcome State Fault Refusal := illegalCommand s
def execReservedD (s : State) : Host.Outcome State Fault Refusal := illegalCommand s
def execReservedE (s : State) : Host.Outcome State Fault Refusal := illegalCommand s
def execReservedF (s : State) : Host.Outcome State Fault Refusal := illegalCommand s

/-- A word that the decoder rejects, with OP below 0xB and RSV not 000: "the legal OP's effect does not happen" (R172). -/
def execIllegalWord (s : State) : Host.Outcome State Fault Refusal := illegalCommand s

end Sys2Proof.Machine
end

