-- ==== Sys2Proof/Machine/Dispatch.lean ====
section
/-! DEFINITION. The effect of each command, one arm per row of spec/opcode_table.json. -/

namespace Sys2Proof.Machine

def exec (i : Instr) (s : State) : Host.Outcome State Fault Refusal :=
  match i with
  | .nop => Sys2Proof.Machine.execNop s
  | .pb b => Sys2Proof.Machine.execPb b s
  | .rdreg idx => Sys2Proof.Machine.execRdreg idx s
  | .rdrx idx => Sys2Proof.Machine.execRdrx idx s
  | .clrf m => Sys2Proof.Machine.execClrf m s
  | .init => Sys2Proof.Machine.execInit s
  | .wrtx idx b => Sys2Proof.Machine.execWrtx idx b s
  | .setlen b => Sys2Proof.Machine.execSetlen b s
  | .enc => Sys2Proof.Machine.execEnc s
  | .rdf idx => Sys2Proof.Machine.execRdf idx s
  | .chk => Sys2Proof.Machine.execChk s
  | .reservedB => Sys2Proof.Machine.execReservedB s
  | .reservedC => Sys2Proof.Machine.execReservedC s
  | .reservedD => Sys2Proof.Machine.execReservedD s
  | .reservedE => Sys2Proof.Machine.execReservedE s
  | .reservedF => Sys2Proof.Machine.execReservedF s

end Sys2Proof.Machine
end

