-- ==== Sys2Proof/Machine/Step.lean ====
section
/-! DEFINITION. One step (R14): the FPSM takes the next input of its port and runs it to completion. -/

namespace Sys2Proof.Machine

/-- A command word runs as the command it decodes to, or as ILLEGAL (R83). -/
def runWord (w : CommandWord) (s : State) : Host.Outcome State Fault Refusal :=
  match decode w with
  | .ok i => exec i s
  | .error _ => execIllegalWord s

/-- One step: a command word (R80), the reset input, which "is applied between steps" (R230), or nothing (R220). -/
def step (s : State) : Host.Outcome State Fault Refusal :=
  match s.port with
  | [] => .next s.idle
  | .rst :: rest => .next { s with port := rest }.takeReset
  | .command w :: rest => runWord w { s with port := rest }

/-- The state whose very next step takes the word numbered as the opcode table numbers it (log 2). -/
def State.withFetchWord (s : State) (nbits w : Nat) : State := s.present (tableWord nbits w)

end Sys2Proof.Machine
end

