-- ==== Sys2Proof/Machine/Run.lean ====
section
/-! DEFINITION. Runs (R247): a sequence of command words presented one at a time, observed as the sequence of responses
together with the state after the last word. -/

namespace Sys2Proof.Machine

/-- The observation of a run over command words: the responses in order, and the state after the last (R247). -/
def runWords : List CommandWord → State → Host.Outcome (List Response × State) Fault Refusal
  | [], s => .next ([], s)
  | w :: ws, s =>
    match step (s.present w) with
    | .fault f => .fault f
    | .refused r => .refused r
    | .next t =>
      match runWords ws t with
      | .fault f => .fault f
      | .refused r => .refused r
      | .next (rs, u) => .next (t.resp.toList ++ rs, u)

/-- Received bytes fed in wire order, each as one PB command (R59; the FEED of R88). -/
def feed (bytes : List Byte) (s : State) : Host.Outcome (List Response × State) Fault Refusal :=
  runWords (bytes.map fun b => encode (.pb b)) s

/-- The frame last built: FBUF[0..FLEN), read in index order (R52). -/
def State.frame (s : State) : List Byte := s.bytes .fBuf 0 s.fLen.toNat

end Sys2Proof.Machine
end

