-- ==== Sys2Proof/Safety.lean ====
section
/-! DEFINITION. What claims about the FPSM speak of: the invariants of R41, the parts of a state that a command leaves
unchanged, and the receiver's ready states. -/

namespace Sys2Proof.Machine

/-! ### Invariants (R41) -/

/-- The receiver is inside a frame: the states of R41 item 5. -/
def RxState.inFrame : RxState → Bool
  | .waitLength => true
  | .waitData => true
  | .waitChecksum => true
  | .waitEnd => true
  | .waitStart => false
  | .messageReady => false
  | .messageError => false

/-- A "ready state" (41_receiver.md section 3): the next byte is a candidate STX. -/
def RxState.ready : RxState → Bool
  | .waitStart => true
  | .messageReady => true
  | .messageError => true
  | .waitLength => false
  | .waitData => false
  | .waitChecksum => false
  | .waitEnd => false

/-- The nine invariants of R41 (item 1 holds by the type `RxState`), and the canonical form of the three buffers. -/
structure Inv (s : State) : Prop where
  /-- R41 item 2. -/
  inData : s.rxState = .waitData →
    1 ≤ s.rxLen.toNat ∧ s.rxLen.toNat ≤ s.cfg.maxData ∧ s.rxCnt.toNat < s.rxLen.toNat
  /-- R41 item 3. -/
  inTail : s.rxState = .waitChecksum ∨ s.rxState = .waitEnd →
    1 ≤ s.rxLen.toNat ∧ s.rxLen.toNat ≤ s.cfg.maxData ∧ s.rxCnt = s.rxLen
  /-- R41 item 4. -/
  inLength : s.rxState = .waitLength → s.rxCnt = 0 ∧ s.rxCchk = 0
  /-- R41 item 5. -/
  running : s.rxState.inFrame = true → s.rxCchk = checksum s.cfg.alg (s.bytes .rxBuf 0 s.rxCnt.toNat)
  /-- R41 item 6. -/
  count : s.rxCnt.toNat ≤ s.cfg.maxData
  /-- R41 item 7. -/
  frameReady : s.frameReady = true →
    (s.rxState = .waitStart ∨ s.rxState = .messageReady) ∧ 1 ≤ s.rxLen.toNat ∧ s.rxLen.toNat ≤ s.cfg.maxData ∧
    s.rxCnt = s.rxLen ∧ s.rxRchk = s.rxCchk ∧ s.rxCchk = checksum s.cfg.alg (s.bytes .rxBuf 0 s.rxLen.toNat)
  /-- R41 item 8. -/
  frameLength : s.fLen = 0 ∨ (5 ≤ s.fLen.toNat ∧ s.fLen.toNat ≤ s.cfg.maxFrame)
  /-- R41 item 9. -/
  frame : s.fLen ≠ 0 →
    s.byteAt .fBuf 0 = s.cfg.stx ∧ s.byteAt .fBuf (s.fLen.toNat - 1) = s.cfg.etx ∧
    (s.byteAt .fBuf 1).toNat = s.fLen.toNat - 4 ∧
    s.byteAt .fBuf (s.fLen.toNat - 2) = checksum s.cfg.alg (s.bytes .fBuf 2 (s.fLen.toNat - 4))
  /-- The buffers are in canonical form, inside their sizes (R50). -/
  memory : ∀ space, Memory.wf (s.cfg.size space) (s.buf space)

/-! ### What stays the same

Each relation reads: `t` has that part of `s` unchanged. Buffers are compared through the read of one byte. -/

/-- Every byte of a buffer reads as before. -/
def SameBuf (space : Space) (s t : State) : Prop := ∀ a, t.byteAt space a = s.byteAt space a

/-- Every byte of a buffer but those from `i` up to `i + n` reads as before. -/
def SameBufOutside (space : Space) (i n : Nat) (s t : State) : Prop :=
  ∀ a, a < i ∨ i + n ≤ a → t.byteAt space a = s.byteAt space a

/-- FRAME_READY and SEND_ACK are unchanged. -/
structure SameFlags (s t : State) : Prop where
  frameReady : t.frameReady = s.frameReady
  sendAck : t.sendAck = s.sendAck

/-- The receiver's counters and checksums are unchanged. -/
structure SameCounters (s t : State) : Prop where
  rxLen : t.rxLen = s.rxLen
  rxCnt : t.rxCnt = s.rxCnt
  rxRchk : t.rxRchk = s.rxRchk
  rxCchk : t.rxCchk = s.rxCchk

/-- The receiver context is unchanged (R20). -/
structure SameReceiver (s t : State) : Prop where
  rxState : t.rxState = s.rxState
  counters : SameCounters s t
  flags : SameFlags s t
  rxBuf : SameBuf .rxBuf s t

/-- The framer context is unchanged (R20). -/
structure SameFramer (s t : State) : Prop where
  txLen : t.txLen = s.txLen
  txBuf : SameBuf .txBuf s t
  fLen : t.fLen = s.fLen
  fBuf : SameBuf .fBuf s t

/-- What no command touches: the build, the reset count and the inputs still waiting at the port. -/
structure SameSurroundings (s t : State) : Prop where
  cfg : t.cfg = s.cfg
  resets : t.resets = s.resets
  port : t.port = s.port

/-- "No state written" (R170 to R172): both contexts and the surroundings are unchanged. -/
structure SameState (s t : State) : Prop where
  receiver : SameReceiver s t
  framer : SameFramer s t
  surroundings : SameSurroundings s t

/-- The two ends of a link are built alike: equal STX_VAL, ETX_VAL and CHK_ALG (R235). -/
structure SameLink (c d : Config) : Prop where
  stx : d.stx = c.stx
  etx : d.etx = c.etx
  alg : d.alg = c.alg

/-- Every register and every level output has the value of the table of R231, and no entry of FBUF can be read. The table leaves the
buffers at `any value`. -/
structure ResetValues (s : State) : Prop where
  rxState : s.rxState = .waitStart
  rxLen : s.rxLen = 0x00
  rxCnt : s.rxCnt = 0x00
  rxRchk : s.rxRchk = 0x00
  sendAck : s.sendAck = false
  frameReady : s.frameReady = false
  rxCchk : s.rxCchk = 0x00
  txLen : s.txLen = 0x00
  fLen : s.fLen = 0
  stateO : s.stateO = 0
  frameReadyO : s.frameReadyO = false
  sendAckO : s.sendAckO = false
  msgReadyO : s.msgReadyO = false
  msgErrorO : s.msgErrorO = false
  status : s.readReg 0x000 = some 0x00
  frameUnreadable : ∀ i, ∃ t, exec (.rdf i) s = .next t ∧ t.resp = some ⟨.invalidParam, 0x00⟩

/-- `v` is the code that R77 gives the receiver state `r`. -/
structure CodeOfState (r : RxState) (v : BitVec 3) : Prop where
  waitStart : r = .waitStart → v = 0
  waitLength : r = .waitLength → v = 1
  waitData : r = .waitData → v = 2
  waitChecksum : r = .waitChecksum → v = 3
  waitEnd : r = .waitEnd → v = 4
  messageReady : r = .messageReady → v = 5
  messageError : r = .messageError → v = 6

/-- `v` is the code that R84 gives the result `r`. -/
structure CodeOfResult (r : Result) (v : BitVec 3) : Prop where
  waiting : r = .waiting → v = 0
  success : r = .success → v = 1
  error : r = .error → v = 2
  invalidParam : r = .invalidParam → v = 3
  ok : r = .ok → v = 4
  illegalCmd : r = .illegalCmd → v = 5

/-- Two states agree on every receiver register, on the flags and on the build. RXBUF is left out: PB does not read it. -/
structure SameReceiverRegisters (s t : State) : Prop where
  cfg : t.cfg = s.cfg
  rxState : t.rxState = s.rxState
  counters : SameCounters s t
  flags : SameFlags s t

/-! ### Responses that recur -/

def Response.waiting : Response := ⟨.waiting, 0x00⟩
def Response.done : Response := ⟨.ok, 0x00⟩
def Response.invalid : Response := ⟨.invalidParam, 0x00⟩
def Response.illegal : Response := ⟨.illegalCmd, 0x00⟩

/-- The states that inputs can lead to from power-on of some build: at every step some input may newly be presented. -/
inductive Reachable (c : Config) : State → Prop where
  | start : Reachable c (State.powerOn c)
  | present (s : State) (inputs : List PortInput) : Reachable c s → Reachable c { s with port := inputs }
  | step (s t : State) : Reachable c s → step s = .next t → Reachable c t

end Sys2Proof.Machine
end

