-- ==== Sys2Proof/Certificates/Slice0/Obligations.lean ====
section
/-! DEFINITION. The statements about the FPSM, for the provers. Each docstring names the rules of spec/ it formalises. -/

open Sys2Proof Sys2Proof.Machine

/-! ## Reset, steps and decoding -/

/-- R230, R231: right after power-on, and right after the reset input is taken in any state, every register, the STATUS register
and every level output has the value of R231's table, no entry of FBUF can be read, and the parameters are not affected. -/
def Obligations.ResetGivesTheTablesValues : Prop :=
  (∀ c : Config, ResetValues (State.powerOn c) ∧ (State.powerOn c).cfg = c) ∧
  (ResetValues State.reset ∧ State.reset.cfg = Config.standard) ∧
  (∀ s : State, ResetValues s.takeReset ∧ s.takeReset.cfg = s.cfg)

/-- The reset input is taken as a step between commands. That it stands in the port's list, that this step gives no response, and that an
unwritten entry then reads as a fresh free value, are the model's choices (logs 2, 3 and 4); the register values are R231's. -/
def Obligations.ResetInputIsOneStep : Prop :=
  ∀ (s : State) (rest : List PortInput), s.port = .rst :: rest →
    ∃ t, step s = .next t ∧ ResetValues t ∧ t.cfg = s.cfg ∧ t.port = rest ∧ t.resp = none ∧
      ∀ space i, t.byteAt space i = Config.unwrittenByte (s.resets + 1) space i

/-- R220: an idle port leaves the state unchanged. That a step with nothing at the port gives no response is the model's choice
(log 3). -/
def Obligations.IdlePortKeepsTheState : Prop :=
  ∀ s : State, s.port = [] → ∃ t, step s = .next t ∧ SameState s t ∧ t.resp = none

/-- R14, R80, R83: a step takes the command word at the head of the port, and is the effect of the command the word decodes to, at
the state that has the rest of the port; a word that decodes to no command is answered ILLEGAL_CMD and changes nothing. -/
def Obligations.StepRunsTheDecodedCommand : Prop :=
  ∀ (s : State) (w : CommandWord) (rest : List PortInput), s.port = .command w :: rest →
    (∀ i, decode w = .ok i → step s = exec i { s with port := rest }) ∧
    (∀ e, decode w = .error e →
      ∃ t, step s = .next t ∧ t.resp = some Response.illegal ∧ SameState { s with port := rest } t)

/-- The word that `withFetchWord` places is the one the very next step runs (log 2): any command, encoded, from any state. -/
def Obligations.PlacedWordRunsNext : Prop :=
  ∀ (i : Instr) (s : State), step (s.withFetchWord 24 (encode i).toNat) = exec i s

/-- R81, R82, R87: decoding the encoding of a command gives the command back, at every value of every operand. -/
def Obligations.DecodeOfEncodeIsIdentity : Prop := ∀ i : Instr, decode (encode i) = .ok i

/-- R81, R83, R87: encoding what a word decodes to gives the word back but for the bits the command ignores, which are 0. -/
def Obligations.EncodeOfDecodeClearsIgnoredBits : Prop :=
  ∀ (w : CommandWord) (i : Instr), decode w = .ok i → encode i = w &&& i.usedBits

/-- R83: a word with RSV not 000 or OP from 0xB on executes ILLEGAL; every other word executes the command of R82 for its OP, with its
own IDX and BYTE; and the bits a command does not use are ignored: any value there selects the same command. -/
def Obligations.DecodingFollowsOpAndRsv : Prop :=
  (∀ (w : CommandWord) (s : State), rsvField w ≠ 0#3 ∨ 0xB ≤ (opField w).toNat → runWord w s = illegalCommand s) ∧
  (∀ (w : CommandWord) (s : State), rsvField w = 0#3 → (opField w).toNat < 0xB →
    ∃ i, decode w = .ok i ∧ runWord w s = exec i s ∧ opField i.row.value = opField w ∧
      (∀ b, i = .pb b ∨ i = .clrf b ∨ i = .setlen b → b = byteField w) ∧
      (∀ k, i = .rdreg k ∨ i = .rdrx k ∨ i = .rdf k → k = idxField w) ∧
      (∀ k b, i = .wrtx k b → k = idxField w ∧ b = byteField w)) ∧
  (∀ (w w' : CommandWord) (i : Instr), decode w = .ok i → w' &&& i.usedBits = w &&& i.usedBits → decode w' = .ok i)

/-- spec/opcode_table.json, R82, R83: a word that decodes to a command is selected by that command's row, a row of the table; a word
that is rejected is selected by no row; and no word is selected by two rows. -/
def Obligations.OpcodeTableAgreesWithDecoder : Prop :=
  (∀ (w : CommandWord) (i : Instr), decode w = .ok i → i.row ∈ opcodeTable ∧ i.row.selects w = true) ∧
  (∀ (w : CommandWord) (e : DecodeReject), decode w = .error e → ∀ r ∈ opcodeTable, r.selects w = false) ∧
  (∀ (w : CommandWord) (r r' : OpcodeRow), r ∈ opcodeTable → r' ∈ opcodeTable → r.selects w = true →
    r'.selects w = true → r = r')

/-- R89's encoding examples, and one word of each other row of the table, written out from R81. Of 0x120005 R89 says that it is
ILLEGAL_CMD; that the decoder rejects it under the name reservedField is the model's (log 6, DEDUCED). -/
def Obligations.WordsOfTheSpecDecode : Prop :=
  decode 0x100002 = .ok (.pb 0x02) ∧ decode 0x200000 = .ok (.rdreg 0) ∧ decode 0x300200 = .ok (.rdrx 2) ∧
  decode 0x600122 = .ok (.wrtx 1 0x22) ∧ decode 0x910200 = .ok (.rdf 258) ∧ decode 0x400003 = .ok (.clrf 3) ∧
  decode 0x120005 = .error (.reservedField 1 1) ∧ decode 0x00FFFF = .ok .nop ∧ decode 0x500000 = .ok .init ∧
  decode 0x700003 = .ok (.setlen 3) ∧ decode 0x800000 = .ok .enc ∧ decode 0xA00000 = .ok .chk ∧
  decode 0xB00000 = .ok .reservedB ∧ decode 0xC00000 = .ok .reservedC ∧ decode 0xD001FF = .ok .reservedD ∧
  decode 0xE1FF00 = .ok .reservedE ∧ decode 0xFFFFFF = .ok .reservedF

/-- R87, R88, R36: each of the eleven forms has the word of R87's table, each register name stands for its index in R36, and each
pseudo-instruction has the expansion of R88's table; a well-formed line has words, and they decode to the commands it stands for. Which
lines are well formed (FEED and LOADTX name at least one byte, LOADTX at most 255) and that ECHO takes the frame length as its operand,
any number from 0 to 511, are the model's choices (log 7). -/
def Obligations.AssembledLinesDecodeToTheirExpansion : Prop :=
  (assemble .nop = some [0x000000] ∧ assemble .init = some [0x500000] ∧ assemble .enc = some [0x800000] ∧
    assemble .chk = some [0xA00000]) ∧
  (∀ b : Nat, b < 256 → assemble (.pb b) = some [0x100000#24 ||| BitVec.ofNat 24 b] ∧
    assemble (.clrf b) = some [0x400000#24 ||| BitVec.ofNat 24 b] ∧
    assemble (.setlen b) = some [0x700000#24 ||| BitVec.ofNat 24 b]) ∧
  (∀ i : Nat, i < 512 → assemble (.rdreg (.index i)) = some [0x200000#24 ||| BitVec.ofNat 24 i <<< 8] ∧
    assemble (.rdrx i) = some [0x300000#24 ||| BitVec.ofNat 24 i <<< 8] ∧
    assemble (.rdf i) = some [0x900000#24 ||| BitVec.ofNat 24 i <<< 8]) ∧
  (∀ i b : Nat, i < 512 → b < 256 →
    assemble (.wrtx i b) = some [0x600000#24 ||| BitVec.ofNat 24 i <<< 8 ||| BitVec.ofNat 24 b]) ∧
  (∀ p ∈ [(RegName.STATUS, 0x000), (.RXLEN, 0x001), (.RXCNT, 0x002), (.RXRCHK, 0x003), (.RXCCHK, 0x004), (.TXLEN, 0x005),
      (.FLEN_LO, 0x006), (.FLEN_HI, 0x007), (.CFG_MAXDATA, 0x008), (.CFG_STX, 0x009), (.CFG_ETX, 0x00A), (.CFG_ALG, 0x00B)],
    assemble (.rdreg (.name p.1)) = assemble (.rdreg (.index p.2))) ∧
  (∀ a : AsmLine, a.wf = true → ∃ ws, assemble a = some ws ∧ ws.map decode = a.expand.map .ok) ∧
  (assemble .clrrdy = assemble (.clrf 0x01) ∧ assemble .clrack = assemble (.clrf 0x02) ∧
    assemble .clrall = assemble (.clrf 0x03)) ∧
  (∀ bs : List Nat, (AsmLine.feed bs).expand = bs.flatMap fun b => (AsmLine.pb b).expand) ∧
  (∀ bs : List Nat, (AsmLine.loadtx bs).expand =
    (bs.zipIdx.flatMap fun p => (AsmLine.wrtx p.2 p.1).expand) ++ (AsmLine.setlen bs.length).expand) ∧
  (∀ bs : List Nat, (AsmLine.send bs).expand = (AsmLine.loadtx bs).expand ++ AsmLine.enc.expand) ∧
  (∀ n : Nat, (AsmLine.echo n).expand = (List.range n).flatMap fun i => (AsmLine.rdf i).expand)

/-! ## The commands, one by one -/

/-- R170: NOP, OP 0x0, gives (OK, 0x00), and the state is unchanged. -/
def Obligations.NopKeepsTheState : Prop :=
  opField (encode .nop) = 0x0 ∧ ∀ s : State, ∃ t, exec .nop s = .next t ∧ t.resp = some Response.done ∧ SameState s t

/-- R172: every reserved word, one with RSV not 000 or with OP 0xB to 0xF, and so the command of every reserved row, gives
(ILLEGAL_CMD, 0x00), and the state is unchanged. -/
def Obligations.ReservedWordsAnswerIllegal : Prop :=
  ∀ s : State,
    (∀ w : CommandWord, rsvField w ≠ 0#3 ∨ 0xB ≤ (opField w).toNat →
      ∃ t, runWord w s = .next t ∧ t.resp = some Response.illegal ∧ SameState s t) ∧
    (∀ i : Instr, i = .reservedB ∨ i = .reservedC ∨ i = .reservedD ∨ i = .reservedE ∨ i = .reservedF →
      ∃ t, exec i s = .next t ∧ t.resp = some Response.illegal ∧ SameState s t)

/-- R132: in WaitStart and at a terminal marker, STX_VAL starts a frame and any other byte is discarded; SEND_ACK, RXLEN, RXRCHK
and RXBUF are kept, and FRAME_READY is cleared by STX_VAL alone. -/
def Obligations.PbInReadyStateSeeksStx : Prop :=
  ∀ (s : State) (b : Byte), s.rxState.ready = true →
    (b = s.cfg.stx → ∃ t, exec (.pb b) s = .next t ∧ t.resp = some Response.waiting ∧ t.rxState = .waitLength ∧
      t.rxCnt = 0 ∧ t.rxCchk = 0x00 ∧ t.frameReady = false ∧ t.sendAck = s.sendAck ∧ t.rxLen = s.rxLen ∧
      t.rxRchk = s.rxRchk ∧ SameBuf .rxBuf s t ∧ SameFramer s t ∧ SameSurroundings s t) ∧
    (b ≠ s.cfg.stx → ∃ t, exec (.pb b) s = .next t ∧ t.resp = some Response.waiting ∧ t.rxState = .waitStart ∧
      SameCounters s t ∧ SameFlags s t ∧ SameBuf .rxBuf s t ∧ SameFramer s t ∧ SameSurroundings s t)

/-- R133: in WaitLength a length from 1 to MAX_DATA is stored; 0 or more than MAX_DATA is dropped silently, and RXLEN is not written. -/
def Obligations.PbInWaitLengthTakesTheLength : Prop :=
  ∀ (s : State) (b : Byte), s.rxState = .waitLength →
    (1 ≤ b.toNat → b.toNat ≤ s.cfg.maxData →
      ∃ t, exec (.pb b) s = .next t ∧ t.resp = some Response.waiting ∧ t.rxState = .waitData ∧ t.rxLen = b ∧
        t.rxCnt = s.rxCnt ∧ t.rxRchk = s.rxRchk ∧ t.rxCchk = s.rxCchk ∧ SameFlags s t ∧ SameBuf .rxBuf s t ∧
        SameFramer s t ∧ SameSurroundings s t) ∧
    (b = 0 ∨ s.cfg.maxData < b.toNat →
      ∃ t, exec (.pb b) s = .next t ∧ t.resp = some Response.waiting ∧ t.rxState = .waitStart ∧ SameCounters s t ∧
        SameFlags s t ∧ SameBuf .rxBuf s t ∧ SameFramer s t ∧ SameSurroundings s t)

/-- R134: in WaitData the byte, whatever its value, is stored at RXBUF[RXCNT] and folded, the count goes up by one, and the state is
WaitChecksum when the count has reached RXLEN. The premise is R51's range of a buffer index, which holds in WaitData by R41 item 2. -/
def Obligations.PbInWaitDataStoresTheByte : Prop :=
  ∀ (s : State) (b : Byte), s.rxState = .waitData → s.rxCnt.toNat < s.cfg.maxData →
    ∃ t, exec (.pb b) s = .next t ∧ t.resp = some Response.waiting ∧ t.byteAt .rxBuf s.rxCnt.toNat = b ∧
      SameBufOutside .rxBuf s.rxCnt.toNat 1 s t ∧ t.rxCchk = chkFold s.cfg.alg s.rxCchk b ∧
      t.rxCnt.toNat = s.rxCnt.toNat + 1 ∧
      (s.rxCnt.toNat + 1 = s.rxLen.toNat → t.rxState = .waitChecksum) ∧
      (s.rxCnt.toNat + 1 ≠ s.rxLen.toNat → t.rxState = .waitData) ∧
      t.rxLen = s.rxLen ∧ t.rxRchk = s.rxRchk ∧ SameFlags s t ∧ SameFramer s t ∧ SameSurroundings s t

/-- R135: in WaitChecksum the byte, whatever its value, is stored in RXRCHK, and the state is WaitEnd. -/
def Obligations.PbInWaitChecksumStoresTheChecksum : Prop :=
  ∀ (s : State) (b : Byte), s.rxState = .waitChecksum →
    ∃ t, exec (.pb b) s = .next t ∧ t.resp = some Response.waiting ∧ t.rxState = .waitEnd ∧ t.rxRchk = b ∧
      t.rxLen = s.rxLen ∧ t.rxCnt = s.rxCnt ∧ t.rxCchk = s.rxCchk ∧ SameFlags s t ∧ SameBuf .rxBuf s t ∧
      SameFramer s t ∧ SameSurroundings s t

/-- R136: in WaitEnd the frame's outcome is decided. SUCCESS with RXLEN sets both flags; otherwise ERROR with bit 0 of RDATA for a byte
that is not ETX_VAL and bit 1 for unequal checksums, and neither flag changes. The counters, checksums and RXBUF keep their values. -/
def Obligations.PbInWaitEndDecidesTheFrame : Prop :=
  ∀ (s : State) (b : Byte), s.rxState = .waitEnd →
    ∃ t, exec (.pb b) s = .next t ∧ SameCounters s t ∧ SameBuf .rxBuf s t ∧ SameFramer s t ∧ SameSurroundings s t ∧
      (b = s.cfg.etx → s.rxRchk = s.rxCchk → t.resp = some ⟨.success, s.rxLen⟩ ∧ t.rxState = .messageReady ∧
        t.frameReady = true ∧ t.sendAck = true) ∧
      (b ≠ s.cfg.etx → s.rxRchk = s.rxCchk → t.resp = some ⟨.error, 0x01⟩ ∧ t.rxState = .messageError ∧ SameFlags s t) ∧
      (b = s.cfg.etx → s.rxRchk ≠ s.rxCchk → t.resp = some ⟨.error, 0x02⟩ ∧ t.rxState = .messageError ∧ SameFlags s t) ∧
      (b ≠ s.cfg.etx → s.rxRchk ≠ s.rxCchk → t.resp = some ⟨.error, 0x03⟩ ∧ t.rxState = .messageError ∧ SameFlags s t)

/-- R130: PB is total: in every state that meets the invariants, every byte has an outcome, and it is WAITING, SUCCESS or ERROR, never
INVALID_PARAM or ILLEGAL_CMD. -/
def Obligations.PbIsTotal : Prop :=
  ∀ (s : State) (b : Byte), Inv s →
    ∃ t r, exec (.pb b) s = .next t ∧ t.resp = some r ∧
      (r.result = .waiting ∨ r.result = .success ∨ r.result = .error)

/-- R171, R36, R77: RDREG, OP 0x2, answers the register of the map, INVALID_PARAM from index 0x00C on, and changes nothing. STATUS has the
state's code of R77 in bits 2 to 0, FRAME_READY in bit 3, SEND_ACK in bit 4, and 0 above. -/
def Obligations.RdregAnswersTheRegisterMap : Prop :=
  ∀ (s : State) (i : Index), opField (encode (.rdreg i)) = 0x2 ∧ ∃ t, exec (.rdreg i) s = .next t ∧ SameState s t ∧
    (i.toNat = 0x000 → ∃ v, t.resp = some ⟨.ok, v⟩ ∧ CodeOfState s.rxState (v.extractLsb' 0 3) ∧
      v.getLsbD 3 = s.frameReady ∧ v.getLsbD 4 = s.sendAck ∧ v.extractLsb' 5 3 = 0) ∧
    (i.toNat = 0x001 → t.resp = some ⟨.ok, s.rxLen⟩) ∧
    (i.toNat = 0x002 → t.resp = some ⟨.ok, s.rxCnt⟩) ∧
    (i.toNat = 0x003 → t.resp = some ⟨.ok, s.rxRchk⟩) ∧
    (i.toNat = 0x004 → t.resp = some ⟨.ok, s.rxCchk⟩) ∧
    (i.toNat = 0x005 → t.resp = some ⟨.ok, s.txLen⟩) ∧
    (i.toNat = 0x006 → t.resp = some ⟨.ok, BitVec.ofNat 8 (s.fLen.toNat % 256)⟩) ∧
    (i.toNat = 0x007 → t.resp = some ⟨.ok, BitVec.ofNat 8 (s.fLen.toNat / 256)⟩) ∧
    (i.toNat = 0x008 → ∃ v, t.resp = some ⟨.ok, v⟩ ∧ v.toNat = s.cfg.maxData) ∧
    (i.toNat = 0x009 → t.resp = some ⟨.ok, s.cfg.stx⟩) ∧
    (i.toNat = 0x00A → t.resp = some ⟨.ok, s.cfg.etx⟩) ∧
    (i.toNat = 0x00B → s.cfg.alg = .xor → t.resp = some ⟨.ok, 0x00⟩) ∧
    (i.toNat = 0x00B → s.cfg.alg = .sum8 → t.resp = some ⟨.ok, 0x01⟩) ∧
    (0x00C ≤ i.toNat → t.resp = some Response.invalid)

/-- R147: RDRX, OP 0x3, answers RXBUF[i] below MAX_DATA, whatever FRAME_READY and RXLEN hold, INVALID_PARAM from MAX_DATA on, and changes
nothing. An entry not written since reset is a free value (log 4). -/
def Obligations.RdrxReadsTheReceiveBuffer : Prop :=
  ∀ (s : State) (i : Index), opField (encode (.rdrx i)) = 0x3 ∧
    (i.toNat < s.cfg.maxData →
      ∃ t, exec (.rdrx i) s = .next t ∧ t.resp = some ⟨.ok, s.byteAt .rxBuf i.toNat⟩ ∧ SameState s t) ∧
    (s.cfg.maxData ≤ i.toNat → ∃ t, exec (.rdrx i) s = .next t ∧ t.resp = some Response.invalid ∧ SameState s t)

/-- R145: CLRF, OP 0x4, clears FRAME_READY for mask bit 0 and SEND_ACK for mask bit 1, ignores mask bits 7 to 2, sets no flag, and changes
nothing else. -/
def Obligations.ClrfClearsTheMaskedFlags : Prop :=
  ∀ (s : State) (m : Byte), opField (encode (.clrf m)) = 0x4 ∧ ∃ t, exec (.clrf m) s = .next t ∧ t.resp = some Response.done ∧
    (m.getLsbD 0 = true → t.frameReady = false) ∧ (m.getLsbD 0 = false → t.frameReady = s.frameReady) ∧
    (m.getLsbD 1 = true → t.sendAck = false) ∧ (m.getLsbD 1 = false → t.sendAck = s.sendAck) ∧
    t.rxState = s.rxState ∧ SameCounters s t ∧ SameBuf .rxBuf s t ∧ SameFramer s t ∧ SameSurroundings s t

/-- R146: INIT, OP 0x5, gives every receiver register its reset value, and keeps RXBUF and the framer context. -/
def Obligations.InitResetsTheReceiver : Prop :=
  opField (encode .init) = 0x5 ∧ ∀ s : State, ∃ t, exec .init s = .next t ∧ t.resp = some Response.done ∧
    t.rxState = .waitStart ∧ t.rxLen = 0x00 ∧ t.rxCnt = 0x00 ∧ t.rxRchk = 0x00 ∧ t.rxCchk = 0x00 ∧ t.frameReady = false ∧ t.sendAck = false ∧
    SameBuf .rxBuf s t ∧ SameFramer s t ∧ SameSurroundings s t

/-- R104: WRTX, OP 0x6, stores the byte at TXBUF[i] below MAX_DATA and nothing else, and answers INVALID_PARAM from MAX_DATA on. -/
def Obligations.WrtxStoresOnePayloadByte : Prop :=
  ∀ (s : State) (i : Index) (b : Byte), opField (encode (.wrtx i b)) = 0x6 ∧
    (i.toNat < s.cfg.maxData →
      ∃ t, exec (.wrtx i b) s = .next t ∧ t.resp = some Response.done ∧ t.byteAt .txBuf i.toNat = b ∧
        SameBufOutside .txBuf i.toNat 1 s t ∧ t.txLen = s.txLen ∧ t.fLen = s.fLen ∧ SameBuf .fBuf s t ∧
        SameReceiver s t ∧ SameSurroundings s t) ∧
    (s.cfg.maxData ≤ i.toNat → ∃ t, exec (.wrtx i b) s = .next t ∧ t.resp = some Response.invalid ∧ SameState s t)

/-- R105: SETLEN, OP 0x7, stores any byte in TXLEN, answers OK, and changes nothing else. -/
def Obligations.SetlenStoresTheLength : Prop :=
  ∀ (s : State) (b : Byte), opField (encode (.setlen b)) = 0x7 ∧ ∃ t, exec (.setlen b) s = .next t ∧
    t.resp = some Response.done ∧ t.txLen = b ∧ SameBuf .txBuf s t ∧ t.fLen = s.fLen ∧ SameBuf .fBuf s t ∧ SameReceiver s t ∧ SameSurroundings s t

/-- R106: CHK, OP 0xA, answers the checksum of TXBUF[0..TXLEN) when TXLEN is at most MAX_DATA (0x00 when it is 0), INVALID_PARAM
otherwise, and changes nothing. -/
def Obligations.ChkAnswersThePayloadChecksum : Prop :=
  opField (encode .chk) = 0xA ∧ ∀ s : State,
    (s.txLen.toNat ≤ s.cfg.maxData →
      ∃ t, exec .chk s = .next t ∧ t.resp = some ⟨.ok, checksum s.cfg.alg (s.bytes .txBuf 0 s.txLen.toNat)⟩ ∧
        (s.txLen = 0 → t.resp = some Response.done) ∧ SameState s t) ∧
    (s.cfg.maxData < s.txLen.toNat → ∃ t, exec .chk s = .next t ∧ t.resp = some Response.invalid ∧ SameState s t)

/-- R107: RDF, OP 0x9, answers FBUF[i] below FLEN, INVALID_PARAM from FLEN on, and changes nothing. An index below FLEN is inside FBUF by
R33 (R41 item 8), which the first clause takes as a premise. -/
def Obligations.RdfReadsTheFrame : Prop :=
  ∀ (s : State) (i : Index), opField (encode (.rdf i)) = 0x9 ∧
    (i.toNat < s.fLen.toNat → i.toNat < s.cfg.maxFrame →
      ∃ t, exec (.rdf i) s = .next t ∧ t.resp = some ⟨.ok, s.byteAt .fBuf i.toNat⟩ ∧ SameState s t) ∧
    (s.fLen.toNat ≤ i.toNat → ∃ t, exec (.rdf i) s = .next t ∧ t.resp = some Response.invalid ∧ SameState s t)

/-- R110: ENC has OP 0x8. With TXLEN from 1 to MAX_DATA, it lays the frame out byte by byte in FBUF, sets FLEN to TXLEN + 4 and answers
the checksum of the payload; the entries of FBUF from TXLEN + 4 on, the payload, TXLEN and the receiver keep their values. With TXLEN 0 or above
MAX_DATA it answers INVALID_PARAM and changes nothing. -/
def Obligations.EncBuildsTheFrame : Prop :=
  opField (encode .enc) = 0x8 ∧ ∀ (s : State) (n : Nat), s.txLen.toNat = n →
    (1 ≤ n → n ≤ s.cfg.maxData →
      ∃ t, exec .enc s = .next t ∧ t.resp = some ⟨.ok, checksum s.cfg.alg (s.bytes .txBuf 0 n)⟩ ∧
        t.byteAt .fBuf 0 = s.cfg.stx ∧ t.byteAt .fBuf 1 = s.txLen ∧
        (∀ k, k < n → t.byteAt .fBuf (2 + k) = s.byteAt .txBuf k) ∧
        t.byteAt .fBuf (n + 2) = checksum s.cfg.alg (s.bytes .txBuf 0 n) ∧ t.byteAt .fBuf (n + 3) = s.cfg.etx ∧
        SameBufOutside .fBuf 0 (n + 4) s t ∧ t.fLen.toNat = n + 4 ∧ t.txLen = s.txLen ∧ SameBuf .txBuf s t ∧
        SameReceiver s t ∧ SameSurroundings s t) ∧
    (n = 0 ∨ s.cfg.maxData < n → ∃ t, exec .enc s = .next t ∧ t.resp = some Response.invalid ∧ SameState s t)

/-- R51, R41 items 2 and 8: in a state that meets the invariants, PB in WaitData writes inside RXBUF and RDF reads inside FBUF, so that
neither can raise the fault that the model has for an access R51 does not define (log 5). -/
def Obligations.AccessesStayInsideTheBuffers : Prop :=
  ∀ s : State, Inv s →
    (s.rxState = .waitData → s.rxCnt.toNat < s.cfg.maxData) ∧ s.fLen.toNat ≤ s.cfg.maxFrame ∧
    (∀ b f, exec (.pb b) s ≠ .fault f) ∧ (∀ i f, exec (.rdf i) s ≠ .fault f)

/-! ## The shared operations -/

/-- R51: a write inside a space sets that entry and changes no other entry of any space; a read inside a space gives what the entry
holds. Outside, where R51 defines nothing, both fault (log 5). -/
def Obligations.MemWriteSetsOneEntry : Prop :=
  ∀ (s : State) (space : Space) (i : Nat) (v : Byte),
    (i < s.cfg.size space → memRead space i s = .ok (s.byteAt space i) ∧
      ∃ t, memWrite space i v s = .ok t ∧ memRead space i t = .ok v ∧
        ∀ space' j, space' ≠ space ∨ j ≠ i → t.byteAt space' j = s.byteAt space' j) ∧
    (s.cfg.size space ≤ i → memRead space i s = .error (.noSuchEntry space i) ∧
      memWrite space i v s = .error (.noSuchEntry space i))

/-- R100, R102: in an XOR build the fold step is exclusive-or, and the checksum is the left fold of it from 0x00. -/
def Obligations.XorChecksumIsTheFold : Prop :=
  (∀ acc b : Byte, chkFold .xor acc b = acc ^^^ b) ∧ checksum .xor [] = 0x00 ∧ ∀ (l : List Byte) (b : Byte), checksum .xor (l ++ [b]) = checksum .xor l ^^^ b

/-- In a SUM8 build the checksum is the sum of the bytes modulo 256. R101 says of this fold: "It is the spec's reading, not a source
statement." -/
def Obligations.Sum8ChecksumIsTheSum : Prop :=
  ∀ l : List Byte, (checksum .sum8 l).toNat = (l.map BitVec.toNat).sum % 256

/-- R103: under either fold the checksum does not depend on the order of the bytes. -/
def Obligations.ChecksumIgnoresOrder : Prop :=
  ∀ (alg : ChkAlg) (l l' : List Byte), l.Perm l' → checksum alg l = checksum alg l'

/-- R103: under either fold, changing exactly one byte always changes the checksum. -/
def Obligations.ChecksumSeesOneChangedByte : Prop :=
  ∀ (alg : ChkAlg) (l r : List Byte) (b c : Byte), b ≠ c → checksum alg (l ++ b :: r) ≠ checksum alg (l ++ c :: r)

/-! ## Rules about the whole machine -/

/-- R41: a block right after power-on, of any build, meets the invariants; so does the machine's reset state. -/
def Obligations.PowerOnMeetsTheInvariants : Prop := (∀ c : Config, Inv (State.powerOn c)) ∧ Inv State.reset

/-- R41: every step keeps the invariants, from every state that meets them. -/
def Obligations.StepKeepsTheInvariants : Prop := ∀ s t : State, Inv s → step s = .next t → Inv t

/-- R41, and "No command changes a parameter" (00_scope.md section 3): every state that inputs can lead to from power-on of a build
meets the invariants and has that build. -/
def Obligations.ReachableStatesMeetTheInvariants : Prop := ∀ (c : Config) (s : State), Reachable c s → Inv s ∧ s.cfg = c

/-- R247: no step from a state that meets the invariants faults or is refused. -/
def Obligations.NoStepStops : Prop := ∀ s : State, Inv s → ∃ t, step s = .next t

/-- R247, R85: from power-on of any build, any sequence of command words runs to its end, with exactly one response for each word. -/
def Obligations.EveryRunCompletes : Prop :=
  ∀ (c : Config) (ws : List CommandWord), ∃ rs t, runWords ws (State.powerOn c) = .next (rs, t) ∧ rs.length = ws.length

/-- R84, R85, R173, R20: every command that completes gives exactly one response, an 11-bit word with RESULT, in its code of R84, in bits
10 to 8 and RDATA in bits 7 to 0, and leaves the build, the reset count and the inputs waiting at the port unchanged. -/
def Obligations.EveryCommandAnswersOnce : Prop :=
  (∀ (i : Instr) (s t : State), exec i s = .next t → (∃ r, t.resp = some r) ∧ SameSurroundings s t) ∧
  (∀ r : Response, r.word.extractLsb' 0 8 = r.rdata ∧ CodeOfResult r.result (r.word.extractLsb' 8 3))

/-- R20, R85: the response is an output, and no later command can read it: what a step does does not depend on the response of the step
before. -/
def Obligations.ResponseIsNeverRead : Prop :=
  ∀ (s : State) (w : CommandWord) (r : Option Response), runWord w { s with resp := r } = runWord w s

/-- R204: errors are precise. A command answered INVALID_PARAM or ILLEGAL_CMD changes no state; a PB answered ERROR changes RXSTATE to
MessageError and nothing else. -/
def Obligations.ErrorsArePrecise : Prop :=
  ∀ (i : Instr) (s t : State) (r : Response), exec i s = .next t → t.resp = some r →
    (r.result = .invalidParam ∨ r.result = .illegalCmd → SameState s t) ∧
    (r.result = .error → (∃ b, i = .pb b) ∧ t.rxState = .messageError ∧ SameCounters s t ∧ SameFlags s t ∧
      SameBuf .rxBuf s t ∧ SameFramer s t ∧ SameSurroundings s t)

/-- R23 to R26, R29, R30, R78: which commands may change each receiver register and RXBUF, in which state, and to what. -/
def Obligations.ReceiverRegistersHaveTheirWriters : Prop :=
  ∀ (i : Instr) (s t : State), exec i s = .next t →
    (t.rxState ≠ s.rxState → (i = .init ∧ t.rxState = .waitStart) ∨ ∃ b, i = .pb b ∧
      ((s.rxState.ready = true ∧ b = s.cfg.stx ∧ t.rxState = .waitLength) ∨
       (s.rxState.ready = true ∧ b ≠ s.cfg.stx ∧ t.rxState = .waitStart) ∨
       (s.rxState = .waitLength ∧ 1 ≤ b.toNat ∧ b.toNat ≤ s.cfg.maxData ∧ t.rxState = .waitData) ∨
       (s.rxState = .waitLength ∧ (b = 0 ∨ s.cfg.maxData < b.toNat) ∧ t.rxState = .waitStart) ∨
       (s.rxState = .waitData ∧ s.rxCnt.toNat + 1 = s.rxLen.toNat ∧ t.rxState = .waitChecksum) ∨
       (s.rxState = .waitChecksum ∧ t.rxState = .waitEnd) ∨
       (s.rxState = .waitEnd ∧ b = s.cfg.etx ∧ s.rxRchk = s.rxCchk ∧ t.rxState = .messageReady) ∨
       (s.rxState = .waitEnd ∧ (b ≠ s.cfg.etx ∨ s.rxRchk ≠ s.rxCchk) ∧ t.rxState = .messageError))) ∧
    (t.rxLen ≠ s.rxLen → (s.rxState = .waitLength ∧ i = .pb t.rxLen) ∨ (i = .init ∧ t.rxLen = 0)) ∧
    (t.rxCnt ≠ s.rxCnt → (i = .pb s.cfg.stx ∧ s.rxState.ready = true ∧ t.rxCnt = 0) ∨
      (s.rxState = .waitData ∧ t.rxCnt = s.rxCnt + 1 ∧ ∃ b, i = .pb b) ∨ (i = .init ∧ t.rxCnt = 0)) ∧
    (t.rxRchk ≠ s.rxRchk → (s.rxState = .waitChecksum ∧ i = .pb t.rxRchk) ∨ (i = .init ∧ t.rxRchk = 0)) ∧
    (t.rxCchk ≠ s.rxCchk → (i = .pb s.cfg.stx ∧ s.rxState.ready = true ∧ t.rxCchk = 0) ∨
      (s.rxState = .waitData ∧ ∃ b, i = .pb b ∧ t.rxCchk = chkFold s.cfg.alg s.rxCchk b) ∨ (i = .init ∧ t.rxCchk = 0)) ∧
    (∀ a, t.byteAt .rxBuf a ≠ s.byteAt .rxBuf a → s.rxState = .waitData ∧ a = s.rxCnt.toNat ∧ i = .pb (t.byteAt .rxBuf a))

/-- R27, R28, R210: what sets and what clears SEND_ACK and FRAME_READY. -/
def Obligations.FlagsHaveTheirWriters : Prop :=
  ∀ (i : Instr) (s t : State), exec i s = .next t →
    (s.sendAck = false → t.sendAck = true → ∃ b d, i = .pb b ∧ t.resp = some ⟨.success, d⟩) ∧
    (s.sendAck = true → t.sendAck = false → (∃ m, i = .clrf m ∧ m.getLsbD 1 = true) ∨ i = .init) ∧
    (s.frameReady = false → t.frameReady = true → ∃ b d, i = .pb b ∧ t.resp = some ⟨.success, d⟩) ∧
    (s.frameReady = true → t.frameReady = false → (i = .pb s.cfg.stx ∧ s.rxState.ready = true) ∨
      (∃ m, i = .clrf m ∧ m.getLsbD 0 = true) ∨ i = .init)

/-- R31 to R34, R111: only SETLEN changes TXLEN, only WRTX changes TXBUF, and only ENC answered OK changes FLEN and FBUF, where a changed
byte is the byte of the payload's frame at its index (R110, R70). -/
def Obligations.FramerRegistersHaveTheirWriters : Prop :=
  ∀ (i : Instr) (s t : State), exec i s = .next t →
    (t.txLen ≠ s.txLen → i = .setlen t.txLen) ∧
    (∀ a, t.byteAt .txBuf a ≠ s.byteAt .txBuf a →
      ∃ k : Index, k.toNat = a ∧ a < s.cfg.maxData ∧ i = .wrtx k (t.byteAt .txBuf a)) ∧
    (t.fLen ≠ s.fLen → i = .enc ∧ (∃ d, t.resp = some ⟨.ok, d⟩) ∧ t.fLen.toNat = s.txLen.toNat + 4) ∧
    (∀ a, t.byteAt .fBuf a ≠ s.byteAt .fBuf a → i = .enc ∧ (∃ d, t.resp = some ⟨.ok, d⟩) ∧ a < t.fLen.toNat ∧
      (wireFrame s.cfg (s.bytes .txBuf 0 s.txLen.toNat))[a]? = some (t.byteAt .fBuf a))

/-- R111, R241: over any run in which no ENC is answered OK, FLEN and every byte of FBUF stay as they were, so that the frame read again
with RDF is the same frame. -/
def Obligations.FrameIsStableBetweenEncodes : Prop :=
  ∀ (ws : List CommandWord) (s u : State) (rs : List Response), runWords ws s = .next (rs, u) →
    (∀ p ∈ ws.zip rs, decode p.1 = .ok .enc → p.2.result ≠ .ok) →
    u.fLen = s.fLen ∧ SameBuf .fBuf s u ∧ u.frame = s.frame ∧
    ∀ (i : Index) (v : State), exec (.rdf i) s = .next v → ∃ v', exec (.rdf i) u = .next v' ∧ v'.resp = v.resp

/-- R55: reads and CHK change no state; and repeating any command but PB, with nothing between, gives the same response and changes
nothing more. R55 excepts entries not written since reset: that a repeated RDRX, CHK or ENC gives the same response over those too rests
not on R55 but on the derived sentence of U1 (two reads of the same unwritten entry give the same byte), in the model's form of it, the
free value of log 4 (DESIGN CHOICE). -/
def Obligations.CommandsOtherThanPbAreIdempotent : Prop :=
  (∀ (i : Instr) (s t : State),
    i = .nop ∨ (∃ k, i = .rdreg k) ∨ (∃ k, i = .rdrx k) ∨ (∃ k, i = .rdf k) ∨ i = .chk → exec i s = .next t →
    SameState s t) ∧
  (∀ (i : Instr) (s t : State), (∀ b, i ≠ .pb b) → exec i s = .next t →
    ∃ u, exec i t = .next u ∧ SameState t u ∧ u.resp = t.resp)

/-- R38, R77, R210: the level outputs are the functions of the state that R38 gives, state_o in the codes of R77; and what asserts and
what deasserts msg_ready_o and msg_error_o. -/
def Obligations.OutcomeSignalsFollowPb : Prop :=
  (∀ s : State, CodeOfState s.rxState s.stateO ∧ s.frameReadyO = s.frameReady ∧ s.sendAckO = s.sendAck ∧
    (s.msgReadyO = true ↔ s.rxState = .messageReady) ∧ (s.msgErrorO = true ↔ s.rxState = .messageError)) ∧
  ∀ (i : Instr) (s t : State), exec i s = .next t →
    (s.msgReadyO = false → t.msgReadyO = true → ∃ b d, i = .pb b ∧ t.resp = some ⟨.success, d⟩) ∧
    (s.msgErrorO = false → t.msgErrorO = true → ∃ b d, i = .pb b ∧ t.resp = some ⟨.error, d⟩) ∧
    (s.msgReadyO = true → (t.msgReadyO = false ↔ (∃ b, i = .pb b) ∨ i = .init)) ∧
    (s.msgErrorO = true → (t.msgErrorO = false ↔ (∃ b, i = .pb b) ∨ i = .init)) ∧
    (∀ b d, i = .pb b → t.resp = some ⟨.success, d⟩ → t.msgReadyO = true ∧ t.frameReadyO = true ∧ t.sendAckO = true) ∧
    (∀ b d, i = .pb b → t.resp = some ⟨.error, d⟩ → t.msgErrorO = true)

/-- R131, R153: after a PB answered SUCCESS or ERROR, RXSTATE is the terminal marker, the next byte is processed exactly as WaitStart
processes it, and RXSTATE is then WaitLength if that byte is STX_VAL and WaitStart if not. -/
def Obligations.TerminalMarkerIsConsumedAsWaitStart : Prop :=
  ∀ (s t : State) (b c : Byte) (r : Response), exec (.pb b) s = .next t → t.resp = some r →
    r.result = .success ∨ r.result = .error →
    ((r.result = .success → t.rxState = .messageReady) ∧ (r.result = .error → t.rxState = .messageError)) ∧
    exec (.pb c) t = exec (.pb c) { t with rxState := .waitStart } ∧
    ∃ u, exec (.pb c) t = .next u ∧ u.resp = some Response.waiting ∧
      (c = s.cfg.stx → u.rxState = .waitLength) ∧ (c ≠ s.cfg.stx → u.rxState = .waitStart)

/-- R155, R28: PB answers SUCCESS only in WaitEnd, on ETX_VAL; RDATA is then RXLEN, and RXBUF[0..RXLEN) is a payload of legal length whose
checksum is the received one. -/
def Obligations.SuccessMeansAValidatedPayload : Prop :=
  ∀ (s t : State) (b d : Byte), Inv s → exec (.pb b) s = .next t → t.resp = some ⟨.success, d⟩ →
    s.rxState = .waitEnd ∧ b = s.cfg.etx ∧ d = t.rxLen ∧ 1 ≤ d.toNat ∧ d.toNat ≤ s.cfg.maxData ∧
    t.rxRchk = checksum s.cfg.alg (t.bytes .rxBuf 0 d.toNat) ∧ t.frameReady = true ∧ t.msgReadyO = true

/-- R28, R240: while FRAME_READY stays 1 across a command, RXLEN and RXBUF keep the validated frame. -/
def Obligations.ReadyFrameIsKept : Prop :=
  ∀ (i : Instr) (s t : State), Inv s → exec i s = .next t → s.frameReady = true → t.frameReady = true →
    t.rxLen = s.rxLen ∧ t.rxCnt = s.rxCnt ∧ SameBuf .rxBuf s t

/-- R130, R218, R20: what PB does to the receiver depends on the receiver and the build alone, not on the framer. Its response and its
effect on the registers do not depend on RXBUF either; and where RXBUF was the same, it is the same after. -/
def Obligations.PbDependsOnTheReceiverAlone : Prop :=
  ∀ (s s' t : State) (b : Byte), SameReceiverRegisters s s' → exec (.pb b) s = .next t →
    ∃ t', exec (.pb b) s' = .next t' ∧ t'.resp = t.resp ∧ SameReceiverRegisters t t' ∧
      (SameBuf .rxBuf s s' → SameBuf .rxBuf t t') ∧
      (s.rxState = .waitData → t'.byteAt .rxBuf s.rxCnt.toNat = t.byteAt .rxBuf s.rxCnt.toNat)

/-- R110, R218: what the framer's commands do to the framer, and what they answer, depends on the framer and the build alone, not on the
receiver. -/
def Obligations.FramerDependsOnTheFramerAlone : Prop :=
  ∀ (i : Instr) (s s' t : State),
    (∃ k b, i = .wrtx k b) ∨ (∃ b, i = .setlen b) ∨ i = .enc ∨ (∃ k, i = .rdf k) ∨ i = .chk →
    s'.cfg = s.cfg → SameFramer s s' → exec i s = .next t →
    ∃ t', exec i s' = .next t' ∧ t'.resp = t.resp ∧ SameFramer t t'

/-! ## Frames through the receiver -/

/-- R154: from a ready state, STX_VAL and a legal LEN byte N are followed by exactly N + 2 more bytes, whatever their values, each
answered WAITING but the last, which is answered SUCCESS if it is ETX_VAL and the CHK byte is the checksum of the N data bytes, and
ERROR otherwise. No byte inside the frame is taken as STX. -/
def Obligations.FrameIsTakenToItsEnd : Prop :=
  ∀ (s : State) (data : List Byte) (k e : Byte), s.rxState.ready = true → 1 ≤ data.length → data.length ≤ s.cfg.maxData →
    ∃ u last, feed (s.cfg.stx :: BitVec.ofNat 8 data.length :: data ++ [k, e]) s =
        .next (List.replicate (data.length + 3) Response.waiting ++ [last], u) ∧
      u.bytes .rxBuf 0 data.length = data ∧ u.rxLen.toNat = data.length ∧
      (e = s.cfg.etx → k = checksum s.cfg.alg data →
        last = ⟨.success, BitVec.ofNat 8 data.length⟩ ∧ u.rxState = .messageReady) ∧
      (¬ (e = s.cfg.etx ∧ k = checksum s.cfg.alg data) → last.result = .error ∧ u.rxState = .messageError)

/-- R150, R235: the frame that ENC builds, fed byte by byte to a receiver in a ready state whose link parameters are equal and whose
MAX_DATA is large enough, is answered WAITING N + 3 times and then SUCCESS with N, and the payload is recovered. -/
def Obligations.EncodedFrameIsReceived : Prop :=
  ∀ (tx tx' rx : State) (n : Nat), tx.txLen.toNat = n → 1 ≤ n → n ≤ tx.cfg.maxData → exec .enc tx = .next tx' →
    SameLink tx.cfg rx.cfg → n ≤ rx.cfg.maxData → rx.rxState.ready = true →
    tx'.frame.length = n + 4 ∧
    ∃ u, feed tx'.frame rx =
        .next (List.replicate (n + 3) Response.waiting ++ [⟨.success, BitVec.ofNat 8 n⟩], u) ∧
      u.bytes .rxBuf 0 n = tx.bytes .txBuf 0 n ∧ u.rxLen.toNat = n ∧ u.frameReady = true ∧ u.sendAck = true ∧
      u.rxState = .messageReady

/-- R151: the frame that ENC builds, with exactly one byte of its data or its checksum changed, is answered WAITING N + 3 times and then
ERROR with 0x02, and does not set SEND_ACK. -/
def Obligations.OneCorruptedByteIsAnError : Prop :=
  ∀ (tx tx' rx : State) (n at_ : Nat) (v : Byte), tx.txLen.toNat = n → 1 ≤ n → n ≤ tx.cfg.maxData →
    exec .enc tx = .next tx' → SameLink tx.cfg rx.cfg → n ≤ rx.cfg.maxData → rx.rxState.ready = true →
    2 ≤ at_ → at_ ≤ n + 2 → tx'.frame[at_]? ≠ some v →
    ∃ u, feed (tx'.frame.set at_ v) rx = .next (List.replicate (n + 3) Response.waiting ++ [⟨.error, 0x02⟩], u) ∧
      u.rxState = .messageError ∧ u.sendAck = rx.sendAck

/-- R152: bytes none of which is STX_VAL, fed to a receiver in a ready state, are each answered WAITING and leave it in WaitStart; a valid
frame after them is received as R150 says. -/
def Obligations.GarbageBeforeAFrameIsDiscarded : Prop :=
  ∀ (s : State) (g p : List Byte), s.rxState.ready = true → (∀ b ∈ g, b ≠ s.cfg.stx) →
    (∃ u, feed g s = .next (List.replicate g.length Response.waiting, u) ∧ (g ≠ [] → u.rxState = .waitStart)) ∧
    (1 ≤ p.length → p.length ≤ s.cfg.maxData →
      ∃ u, feed (g ++ wireFrame s.cfg p) s =
          .next (List.replicate (g.length + p.length + 3) Response.waiting ++ [⟨.success, BitVec.ofNat 8 p.length⟩], u) ∧
        u.bytes .rxBuf 0 p.length = p ∧ u.rxLen.toNat = p.length ∧ u.frameReady = true ∧ u.sendAck = true ∧
        u.rxState = .messageReady)

/-- R137, R153: after any outcome, ERROR included, a valid frame is received with no command between. -/
def Obligations.ReceiverRecoversAfterAnyOutcome : Prop :=
  ∀ (s t : State) (b : Byte) (r : Response) (p : List Byte), exec (.pb b) s = .next t → t.resp = some r →
    r.result = .success ∨ r.result = .error → 1 ≤ p.length → p.length ≤ t.cfg.maxData →
    ∃ u, feed (wireFrame t.cfg p) t =
        .next (List.replicate (p.length + 3) Response.waiting ++ [⟨.success, BitVec.ofNat 8 p.length⟩], u) ∧
      u.bytes .rxBuf 0 p.length = p ∧ u.frameReady = true ∧ u.sendAck = true

/-- R235: two ends built alike but for the checksum algorithm: a frame is answered ERROR with the checksum cause, unless its two checksums
happen to agree, and then SUCCESS. -/
def Obligations.UnequalAlgorithmsGiveAChecksumError : Prop :=
  ∀ (c : Config) (s : State) (p : List Byte), s.rxState.ready = true → s.cfg.stx = c.stx → s.cfg.etx = c.etx →
    1 ≤ p.length → p.length ≤ s.cfg.maxData →
    ∃ u last, feed (wireFrame c p) s = .next (List.replicate (p.length + 3) Response.waiting ++ [last], u) ∧
      (checksum c.alg p ≠ checksum s.cfg.alg p → last = ⟨.error, 0x02⟩) ∧
      (checksum c.alg p = checksum s.cfg.alg p → last = ⟨.success, BitVec.ofNat 8 p.length⟩)
end

