-- ==== Sys2Proof/Laws/Checksum.lean ====
section
/-! SUPPORT. The small laws of the checksum fold and of the wire frame. -/

namespace Sys2Proof.Machine

@[simp] theorem chkFold_xor (a b : Byte) : chkFold .xor a b = a ^^^ b := rfl
@[simp] theorem chkFold_sum8 (a b : Byte) : chkFold .sum8 a b = a + b := rfl

@[simp] theorem checksum_nil (alg : ChkAlg) : checksum alg [] = 0 := rfl

/-- One more byte is one more fold step. -/
theorem checksum_snoc (alg : ChkAlg) (l : List Byte) (b : Byte) :
    checksum alg (l ++ [b]) = chkFold alg (checksum alg l) b := by
  simp [checksum]

/-- For a fixed accumulator the fold step is injective in its byte. -/
theorem chkFold_right_injective (alg : ChkAlg) (a b c : Byte) (h : chkFold alg a b = chkFold alg a c) : b = c := by
  cases alg with
  | xor => simpa using h
  | sum8 => simpa using h

/-- For a fixed byte the fold step is injective in its accumulator. -/
theorem chkFold_left_injective (alg : ChkAlg) (a b c : Byte) (h : chkFold alg a c = chkFold alg b c) : a = b := by
  cases alg with
  | xor => simpa using h
  | sum8 => simpa using h

@[simp] theorem length_wireFrame (c : Config) (p : List Byte) : (wireFrame c p).length = p.length + 4 := by
  simp [wireFrame]

end Sys2Proof.Machine
end

