-- ==== Sys2Proof/Laws/Decode.lean ====
section
/-! SUPPORT. The fields of a word built by `commandWord`, and of any word. -/

namespace Sys2Proof

@[simp] theorem opField_commandWord (op : BitVec 4) (i : Index) (b : Byte) : opField (commandWord op i b) = op := by
  ext k hk
  simp only [opField, commandWord, BitVec.getElem_extractLsb', BitVec.getLsbD_append]
  simp [show ¬ 20 + k < 8 by omega, show ¬ 20 + k - 8 < 9 by omega, show ¬ 20 + k - 8 - 9 < 3 by omega,
    show 20 + k - 8 - 9 - 3 = k by omega, BitVec.getLsbD_eq_getElem hk]

@[simp] theorem rsvField_commandWord (op : BitVec 4) (i : Index) (b : Byte) : rsvField (commandWord op i b) = 0#3 := by
  ext k hk
  simp only [rsvField, commandWord, BitVec.getElem_extractLsb', BitVec.getLsbD_append]
  simp [show ¬ 17 + k < 8 by omega, show ¬ 17 + k - 8 < 9 by omega, show 17 + k - 8 - 9 < 3 by omega]

@[simp] theorem idxField_commandWord (op : BitVec 4) (i : Index) (b : Byte) : idxField (commandWord op i b) = i := by
  ext k hk
  simp only [idxField, commandWord, BitVec.getElem_extractLsb', BitVec.getLsbD_append]
  simp [show ¬ 8 + k < 8 by omega, show 8 + k - 8 = k by omega, hk]

@[simp] theorem byteField_commandWord (op : BitVec 4) (i : Index) (b : Byte) : byteField (commandWord op i b) = b := by
  ext k hk
  simp only [byteField, commandWord, BitVec.getElem_extractLsb', BitVec.getLsbD_append]
  simp [hk]

/-- Every word is its four fields, in order (R81). -/
theorem word_eq_fields (w : CommandWord) : opField w ++ rsvField w ++ idxField w ++ byteField w = w := by
  ext k hk
  simp only [opField, rsvField, idxField, byteField]
  rw [← BitVec.getLsbD_eq_getElem, ← BitVec.getLsbD_eq_getElem]
  simp only [BitVec.getLsbD_append, BitVec.getLsbD_extractLsb']
  by_cases h1 : k < 8
  · simp [h1]
  · by_cases h2 : k - 8 < 9
    · simp [h1, h2, show 8 + (k - 8) = k by omega]
    · by_cases h3 : k - 8 - 9 < 3
      · simp [h1, h2, h3, show 17 + (k - 8 - 9) = k by omega]
      · simp [h1, h2, h3, show k - 8 - 9 - 3 < 4 by omega, show 20 + (k - 8 - 9 - 3) = k by omega]

/-- A word built from its fields, in the form in which R87's table writes it. -/
theorem commandWord_eq_or (op : BitVec 4) (i : Index) (b : Byte) :
    commandWord op i b = (op.setWidth 24 <<< 20) ||| (i.setWidth 24 <<< 8) ||| b.setWidth 24 := by
  apply BitVec.eq_of_getLsbD_eq
  intro k hk
  show (op ++ (0#3) ++ i ++ b : BitVec (4 + 3 + 9 + 8)).getLsbD k = _
  rw [BitVec.getLsbD_append, BitVec.getLsbD_append, BitVec.getLsbD_append]
  simp only [BitVec.getLsbD_or, BitVec.getLsbD_shiftLeft, BitVec.getLsbD_setWidth, BitVec.getLsbD_zero, hk, decide_true, Bool.true_and]
  by_cases h1 : k < 8
  · have : k < 20 := by omega
    simp [h1, this]
  · have hb : b.getLsbD k = false := BitVec.getLsbD_of_ge _ _ (by omega)
    by_cases h2 : k - 8 < 9
    · have h3 : k < 20 := by omega
      have : k - 8 < 24 := by omega
      simp [h1, h2, h3, hb, this]
    · have hi : i.getLsbD (k-8) = false := BitVec.getLsbD_of_ge _ _ (by omega)
      by_cases h5 : k < 20
      · have h6 : k - 8 - 9 < 3 := by omega
        simp [h1, h2, h5, h6, hb, hi]
      · have h6 : ¬ k - 8 - 9 < 3 := by omega
        have : k - 8 - 9 - 3 = k - 20 := by omega
        have h8 : k - 20 < 24 := by omega
        simp [h1, h2, h5, h6, hb, hi, this, h8]

end Sys2Proof
end

