-- ==== Sys2Proof/Laws/State.lean ====
section
/-! SUPPORT. One lemma per field per named update of the state, so that no later proof unfolds an update. -/

namespace Sys2Proof.Machine

/-! ### `setBuf`: the buffer named, and nothing else -/

@[simp] theorem State.setBuf_cfg (s : State) (sp : Space) (m : Memory) : (s.setBuf sp m).cfg = s.cfg := by cases sp <;> rfl
@[simp] theorem State.setBuf_rxState (s : State) (sp : Space) (m : Memory) : (s.setBuf sp m).rxState = s.rxState := by cases sp <;> rfl
@[simp] theorem State.setBuf_rxLen (s : State) (sp : Space) (m : Memory) : (s.setBuf sp m).rxLen = s.rxLen := by cases sp <;> rfl
@[simp] theorem State.setBuf_rxCnt (s : State) (sp : Space) (m : Memory) : (s.setBuf sp m).rxCnt = s.rxCnt := by cases sp <;> rfl
@[simp] theorem State.setBuf_rxRchk (s : State) (sp : Space) (m : Memory) : (s.setBuf sp m).rxRchk = s.rxRchk := by cases sp <;> rfl
@[simp] theorem State.setBuf_rxCchk (s : State) (sp : Space) (m : Memory) : (s.setBuf sp m).rxCchk = s.rxCchk := by cases sp <;> rfl
@[simp] theorem State.setBuf_frameReady (s : State) (sp : Space) (m : Memory) : (s.setBuf sp m).frameReady = s.frameReady := by cases sp <;> rfl
@[simp] theorem State.setBuf_sendAck (s : State) (sp : Space) (m : Memory) : (s.setBuf sp m).sendAck = s.sendAck := by cases sp <;> rfl
@[simp] theorem State.setBuf_txLen (s : State) (sp : Space) (m : Memory) : (s.setBuf sp m).txLen = s.txLen := by cases sp <;> rfl
@[simp] theorem State.setBuf_fLen (s : State) (sp : Space) (m : Memory) : (s.setBuf sp m).fLen = s.fLen := by cases sp <;> rfl
@[simp] theorem State.setBuf_resets (s : State) (sp : Space) (m : Memory) : (s.setBuf sp m).resets = s.resets := by cases sp <;> rfl
@[simp] theorem State.setBuf_port (s : State) (sp : Space) (m : Memory) : (s.setBuf sp m).port = s.port := by cases sp <;> rfl
@[simp] theorem State.setBuf_resp (s : State) (sp : Space) (m : Memory) : (s.setBuf sp m).resp = s.resp := by cases sp <;> rfl

@[simp] theorem State.buf_setBuf_self (s : State) (sp : Space) (m : Memory) : (s.setBuf sp m).buf sp = m := by cases sp <;> rfl

theorem State.buf_setBuf_other (s : State) (sp sp' : Space) (m : Memory) (h : sp' ≠ sp) : (s.setBuf sp m).buf sp' = s.buf sp' := by
  cases sp <;> cases sp' <;> first | rfl | exact absurd rfl h

@[simp] theorem State.setBuf_txBuf_rxBuf (s : State) (m : Memory) : (s.setBuf .txBuf m).rxBuf = s.rxBuf := rfl
@[simp] theorem State.setBuf_fBuf_rxBuf (s : State) (m : Memory) : (s.setBuf .fBuf m).rxBuf = s.rxBuf := rfl
@[simp] theorem State.setBuf_rxBuf_txBuf (s : State) (m : Memory) : (s.setBuf .rxBuf m).txBuf = s.txBuf := rfl
@[simp] theorem State.setBuf_fBuf_txBuf (s : State) (m : Memory) : (s.setBuf .fBuf m).txBuf = s.txBuf := rfl
@[simp] theorem State.setBuf_rxBuf_fBuf (s : State) (m : Memory) : (s.setBuf .rxBuf m).fBuf = s.fBuf := rfl
@[simp] theorem State.setBuf_txBuf_fBuf (s : State) (m : Memory) : (s.setBuf .txBuf m).fBuf = s.fBuf := rfl
@[simp] theorem State.setBuf_rxBuf_self (s : State) (m : Memory) : (s.setBuf .rxBuf m).rxBuf = m := rfl
@[simp] theorem State.setBuf_txBuf_self (s : State) (m : Memory) : (s.setBuf .txBuf m).txBuf = m := rfl
@[simp] theorem State.setBuf_fBuf_self (s : State) (m : Memory) : (s.setBuf .fBuf m).fBuf = m := rfl

/-! ### `writeByte` and `writeBytes`: registers unchanged -/

@[simp] theorem State.writeByte_cfg (s : State) (sp : Space) (i : Nat) (v : Byte) : (s.writeByte sp i v).cfg = s.cfg := by cases sp <;> rfl
@[simp] theorem State.writeByte_rxState (s : State) (sp : Space) (i : Nat) (v : Byte) : (s.writeByte sp i v).rxState = s.rxState := by cases sp <;> rfl
@[simp] theorem State.writeByte_rxLen (s : State) (sp : Space) (i : Nat) (v : Byte) : (s.writeByte sp i v).rxLen = s.rxLen := by cases sp <;> rfl
@[simp] theorem State.writeByte_rxCnt (s : State) (sp : Space) (i : Nat) (v : Byte) : (s.writeByte sp i v).rxCnt = s.rxCnt := by cases sp <;> rfl
@[simp] theorem State.writeByte_rxRchk (s : State) (sp : Space) (i : Nat) (v : Byte) : (s.writeByte sp i v).rxRchk = s.rxRchk := by cases sp <;> rfl
@[simp] theorem State.writeByte_rxCchk (s : State) (sp : Space) (i : Nat) (v : Byte) : (s.writeByte sp i v).rxCchk = s.rxCchk := by cases sp <;> rfl
@[simp] theorem State.writeByte_frameReady (s : State) (sp : Space) (i : Nat) (v : Byte) : (s.writeByte sp i v).frameReady = s.frameReady := by cases sp <;> rfl
@[simp] theorem State.writeByte_sendAck (s : State) (sp : Space) (i : Nat) (v : Byte) : (s.writeByte sp i v).sendAck = s.sendAck := by cases sp <;> rfl
@[simp] theorem State.writeByte_txLen (s : State) (sp : Space) (i : Nat) (v : Byte) : (s.writeByte sp i v).txLen = s.txLen := by cases sp <;> rfl
@[simp] theorem State.writeByte_fLen (s : State) (sp : Space) (i : Nat) (v : Byte) : (s.writeByte sp i v).fLen = s.fLen := by cases sp <;> rfl
@[simp] theorem State.writeByte_resets (s : State) (sp : Space) (i : Nat) (v : Byte) : (s.writeByte sp i v).resets = s.resets := by cases sp <;> rfl
@[simp] theorem State.writeByte_port (s : State) (sp : Space) (i : Nat) (v : Byte) : (s.writeByte sp i v).port = s.port := by cases sp <;> rfl
@[simp] theorem State.writeByte_resp (s : State) (sp : Space) (i : Nat) (v : Byte) : (s.writeByte sp i v).resp = s.resp := by cases sp <;> rfl

@[simp] theorem State.writeBytes_cfg (s : State) (sp : Space) (i : Nat) (vs : List Byte) : (s.writeBytes sp i vs).cfg = s.cfg := by cases sp <;> rfl
@[simp] theorem State.writeBytes_rxState (s : State) (sp : Space) (i : Nat) (vs : List Byte) : (s.writeBytes sp i vs).rxState = s.rxState := by cases sp <;> rfl
@[simp] theorem State.writeBytes_rxLen (s : State) (sp : Space) (i : Nat) (vs : List Byte) : (s.writeBytes sp i vs).rxLen = s.rxLen := by cases sp <;> rfl
@[simp] theorem State.writeBytes_rxCnt (s : State) (sp : Space) (i : Nat) (vs : List Byte) : (s.writeBytes sp i vs).rxCnt = s.rxCnt := by cases sp <;> rfl
@[simp] theorem State.writeBytes_rxRchk (s : State) (sp : Space) (i : Nat) (vs : List Byte) : (s.writeBytes sp i vs).rxRchk = s.rxRchk := by cases sp <;> rfl
@[simp] theorem State.writeBytes_rxCchk (s : State) (sp : Space) (i : Nat) (vs : List Byte) : (s.writeBytes sp i vs).rxCchk = s.rxCchk := by cases sp <;> rfl
@[simp] theorem State.writeBytes_frameReady (s : State) (sp : Space) (i : Nat) (vs : List Byte) : (s.writeBytes sp i vs).frameReady = s.frameReady := by cases sp <;> rfl
@[simp] theorem State.writeBytes_sendAck (s : State) (sp : Space) (i : Nat) (vs : List Byte) : (s.writeBytes sp i vs).sendAck = s.sendAck := by cases sp <;> rfl
@[simp] theorem State.writeBytes_txLen (s : State) (sp : Space) (i : Nat) (vs : List Byte) : (s.writeBytes sp i vs).txLen = s.txLen := by cases sp <;> rfl
@[simp] theorem State.writeBytes_fLen (s : State) (sp : Space) (i : Nat) (vs : List Byte) : (s.writeBytes sp i vs).fLen = s.fLen := by cases sp <;> rfl
@[simp] theorem State.writeBytes_resets (s : State) (sp : Space) (i : Nat) (vs : List Byte) : (s.writeBytes sp i vs).resets = s.resets := by cases sp <;> rfl
@[simp] theorem State.writeBytes_port (s : State) (sp : Space) (i : Nat) (vs : List Byte) : (s.writeBytes sp i vs).port = s.port := by cases sp <;> rfl
@[simp] theorem State.writeBytes_resp (s : State) (sp : Space) (i : Nat) (vs : List Byte) : (s.writeBytes sp i vs).resp = s.resp := by cases sp <;> rfl

/-! ### `present`, `idle` and `takeReset` -/

@[simp] theorem State.present_cfg (s : State) (w : CommandWord) : (s.present w).cfg = s.cfg := rfl
@[simp] theorem State.present_rxState (s : State) (w : CommandWord) : (s.present w).rxState = s.rxState := rfl
@[simp] theorem State.present_rxLen (s : State) (w : CommandWord) : (s.present w).rxLen = s.rxLen := rfl
@[simp] theorem State.present_rxCnt (s : State) (w : CommandWord) : (s.present w).rxCnt = s.rxCnt := rfl
@[simp] theorem State.present_rxRchk (s : State) (w : CommandWord) : (s.present w).rxRchk = s.rxRchk := rfl
@[simp] theorem State.present_rxCchk (s : State) (w : CommandWord) : (s.present w).rxCchk = s.rxCchk := rfl
@[simp] theorem State.present_frameReady (s : State) (w : CommandWord) : (s.present w).frameReady = s.frameReady := rfl
@[simp] theorem State.present_sendAck (s : State) (w : CommandWord) : (s.present w).sendAck = s.sendAck := rfl
@[simp] theorem State.present_rxBuf (s : State) (w : CommandWord) : (s.present w).rxBuf = s.rxBuf := rfl
@[simp] theorem State.present_txLen (s : State) (w : CommandWord) : (s.present w).txLen = s.txLen := rfl
@[simp] theorem State.present_txBuf (s : State) (w : CommandWord) : (s.present w).txBuf = s.txBuf := rfl
@[simp] theorem State.present_fLen (s : State) (w : CommandWord) : (s.present w).fLen = s.fLen := rfl
@[simp] theorem State.present_fBuf (s : State) (w : CommandWord) : (s.present w).fBuf = s.fBuf := rfl
@[simp] theorem State.present_resets (s : State) (w : CommandWord) : (s.present w).resets = s.resets := rfl
@[simp] theorem State.present_port (s : State) (w : CommandWord) : (s.present w).port = .command w :: s.port := rfl
@[simp] theorem State.present_resp (s : State) (w : CommandWord) : (s.present w).resp = s.resp := rfl

@[simp] theorem State.idle_cfg (s : State) : s.idle.cfg = s.cfg := rfl
@[simp] theorem State.idle_rxState (s : State) : s.idle.rxState = s.rxState := rfl
@[simp] theorem State.idle_rxLen (s : State) : s.idle.rxLen = s.rxLen := rfl
@[simp] theorem State.idle_rxCnt (s : State) : s.idle.rxCnt = s.rxCnt := rfl
@[simp] theorem State.idle_rxRchk (s : State) : s.idle.rxRchk = s.rxRchk := rfl
@[simp] theorem State.idle_rxCchk (s : State) : s.idle.rxCchk = s.rxCchk := rfl
@[simp] theorem State.idle_frameReady (s : State) : s.idle.frameReady = s.frameReady := rfl
@[simp] theorem State.idle_sendAck (s : State) : s.idle.sendAck = s.sendAck := rfl
@[simp] theorem State.idle_rxBuf (s : State) : s.idle.rxBuf = s.rxBuf := rfl
@[simp] theorem State.idle_txLen (s : State) : s.idle.txLen = s.txLen := rfl
@[simp] theorem State.idle_txBuf (s : State) : s.idle.txBuf = s.txBuf := rfl
@[simp] theorem State.idle_fLen (s : State) : s.idle.fLen = s.fLen := rfl
@[simp] theorem State.idle_fBuf (s : State) : s.idle.fBuf = s.fBuf := rfl
@[simp] theorem State.idle_resets (s : State) : s.idle.resets = s.resets := rfl
@[simp] theorem State.idle_port (s : State) : s.idle.port = s.port := rfl
@[simp] theorem State.idle_resp (s : State) : s.idle.resp = none := rfl

@[simp] theorem State.takeReset_cfg (s : State) : s.takeReset.cfg = s.cfg := rfl
@[simp] theorem State.takeReset_rxState (s : State) : s.takeReset.rxState = .waitStart := rfl
@[simp] theorem State.takeReset_rxLen (s : State) : s.takeReset.rxLen = 0x00 := rfl
@[simp] theorem State.takeReset_rxCnt (s : State) : s.takeReset.rxCnt = 0x00 := rfl
@[simp] theorem State.takeReset_rxRchk (s : State) : s.takeReset.rxRchk = 0x00 := rfl
@[simp] theorem State.takeReset_rxCchk (s : State) : s.takeReset.rxCchk = 0x00 := rfl
@[simp] theorem State.takeReset_frameReady (s : State) : s.takeReset.frameReady = false := rfl
@[simp] theorem State.takeReset_sendAck (s : State) : s.takeReset.sendAck = false := rfl
@[simp] theorem State.takeReset_rxBuf (s : State) : s.takeReset.rxBuf = [] := rfl
@[simp] theorem State.takeReset_txLen (s : State) : s.takeReset.txLen = 0x00 := rfl
@[simp] theorem State.takeReset_txBuf (s : State) : s.takeReset.txBuf = [] := rfl
@[simp] theorem State.takeReset_fLen (s : State) : s.takeReset.fLen = 0 := rfl
@[simp] theorem State.takeReset_fBuf (s : State) : s.takeReset.fBuf = [] := rfl
@[simp] theorem State.takeReset_resets (s : State) : s.takeReset.resets = s.resets + 1 := rfl
@[simp] theorem State.takeReset_port (s : State) : s.takeReset.port = s.port := rfl
@[simp] theorem State.takeReset_resp (s : State) : s.takeReset.resp = none := rfl

end Sys2Proof.Machine
end

