-- ==== Sys2Proof/Laws/Memory.lean ====
section
/-! SUPPORT. The laws of a buffer's contents: a read after a write, and the canonical form that every write keeps. -/

namespace Sys2Proof.Machine

/-! ### Read after write -/

@[simp] theorem Memory.lookup_nil (i : Nat) : Memory.lookup i [] = none := rfl

@[simp] theorem Memory.lookup_write_self (i : Nat) (v : Byte) (m : Memory) : Memory.lookup i (Memory.write i v m) = some v := by
  induction m with
  | nil => simp [Memory.write, Memory.lookup]
  | cons c m ih =>
    obtain ⟨a, w⟩ := c
    by_cases h : i < a
    · simp [Memory.write, Memory.lookup, h]
    · by_cases h' : a = i <;> simp [Memory.write, Memory.lookup, h, h', ih]

theorem Memory.lookup_write_other (i j : Nat) (v : Byte) (m : Memory) (h : j ≠ i) :
    Memory.lookup j (Memory.write i v m) = Memory.lookup j m := by
  induction m with
  | nil => simp [Memory.write, Memory.lookup, Ne.symm h]
  | cons c m ih =>
    obtain ⟨a, w⟩ := c
    by_cases h1 : i < a
    · simp [Memory.write, Memory.lookup, h1, Ne.symm h]
    · by_cases h2 : a = i
      · subst h2; simp [Memory.write, Memory.lookup, Ne.symm h]
      · simp [Memory.write, Memory.lookup, h1, h2, ih]

theorem Memory.lookup_writeAll_outside (i j : Nat) (vs : List Byte) (m : Memory) (h : j < i ∨ i + vs.length ≤ j) :
    Memory.lookup j (Memory.writeAll i vs m) = Memory.lookup j m := by
  induction vs generalizing i m with
  | nil => rfl
  | cons v vs ih =>
    simp only [List.length_cons] at h
    rw [Memory.writeAll, ih _ _ (by omega), Memory.lookup_write_other _ _ _ _ (by omega)]

theorem Memory.lookup_writeAll_inside (i k : Nat) (vs : List Byte) (m : Memory) (h : k < vs.length) :
    Memory.lookup (i + k) (Memory.writeAll i vs m) = some vs[k] := by
  induction vs generalizing i k m with
  | nil => simp at h
  | cons v vs ih =>
    cases k with
    | zero => rw [Memory.writeAll, Memory.lookup_writeAll_outside _ _ _ _ (by omega)]; simp
    | succ k =>
      have h' : k < vs.length := by simpa using h
      rw [Memory.writeAll, show i + (k + 1) = i + 1 + k by omega, ih _ _ _ h']; simp

/-! ### Canonical form -/

theorem Memory.mem_write (c : Host.Cell) (i : Nat) (v : Byte) (m : Memory) (h : c ∈ Memory.write i v m) :
    c = (i, v) ∨ c ∈ m := by
  induction m with
  | nil => simpa [Memory.write] using h
  | cons d m ih =>
    obtain ⟨a, w⟩ := d
    by_cases h1 : i < a
    · simpa [Memory.write, h1] using h
    · by_cases h2 : a = i
      · subst h2
        simp only [Memory.write, h1, if_true, if_false, List.mem_cons] at h
        rcases h with h | h
        · exact .inl h
        · exact .inr (List.mem_cons_of_mem _ h)
      · simp only [Memory.write, h1, h2, if_false, List.mem_cons] at h
        rcases h with h | h
        · exact .inr (by simp [h])
        · rcases ih h with h | h
          · exact .inl h
          · exact .inr (List.mem_cons_of_mem _ h)

/-- A write inside a buffer keeps its canonical form. -/
theorem Memory.wf_write (size i : Nat) (v : Byte) (m : Memory) (hm : Memory.wf size m) (hi : i < size) :
    Memory.wf size (Memory.write i v m) := by
  refine ⟨?_, fun c hc => ?_⟩
  · have hp := hm.1
    clear hm
    induction m with
    | nil => simp [Memory.write]
    | cons d m ih =>
      obtain ⟨a, w⟩ := d
      rw [List.pairwise_cons] at hp
      by_cases h1 : i < a
      · simp only [Memory.write, h1, if_true, List.pairwise_cons, List.mem_cons]
        refine ⟨?_, hp.1, hp.2⟩
        rintro c (rfl | hc)
        · exact h1
        · exact Nat.lt_trans h1 (hp.1 c hc)
      · by_cases h2 : a = i
        · subst h2
          simp only [Memory.write, h1, if_true, if_false, List.pairwise_cons]
          exact hp
        · simp only [Memory.write, h1, h2, if_false, List.pairwise_cons]
          refine ⟨fun c hc => ?_, ih hp.2⟩
          rcases Memory.mem_write _ _ _ _ hc with rfl | hc
          · exact Nat.lt_of_le_of_ne (Nat.le_of_not_lt h1) h2
          · exact hp.1 c hc
  · rcases Memory.mem_write _ _ _ _ hc with rfl | hc
    · exact hi
    · exact hm.2 c hc

theorem Memory.wf_writeAll (size i : Nat) (vs : List Byte) (m : Memory) (hm : Memory.wf size m) (hi : i + vs.length ≤ size) :
    Memory.wf size (Memory.writeAll i vs m) := by
  induction vs generalizing i m with
  | nil => exact hm
  | cons v vs ih =>
    simp only [List.length_cons] at hi
    exact ih _ _ (Memory.wf_write _ _ _ _ hm (by omega)) (by omega)

theorem Memory.wf_nil (size : Nat) : Memory.wf size [] := ⟨.nil, by simp⟩

end Sys2Proof.Machine
end

