-- ==== Sys2Proof/Laws/Ops.lean ====
section
/-! SUPPORT. What each shared operation does, said once: reads and writes of a buffer through the state, `memRead`, `memWrite`,
`respond`, and the step on each kind of input. -/

namespace Sys2Proof.Machine

/-! ### The read of one byte -/

/-- The read depends on the buffer and the reset count alone. -/
theorem State.byteAt_congr (s t : State) (sp : Space) (i : Nat) (hb : t.buf sp = s.buf sp) (hr : t.resets = s.resets) :
    t.byteAt sp i = s.byteAt sp i := by
  simp only [State.byteAt, hb, hr]

@[simp] theorem State.byteAt_writeByte_self (s : State) (sp : Space) (i : Nat) (v : Byte) :
    (s.writeByte sp i v).byteAt sp i = v := by
  simp [State.byteAt, State.writeByte]

theorem State.byteAt_writeByte_other (s : State) (sp : Space) (i j : Nat) (v : Byte) (h : j ≠ i) :
    (s.writeByte sp i v).byteAt sp j = s.byteAt sp j := by
  simp [State.byteAt, State.writeByte, Memory.lookup_write_other _ _ _ _ h]

theorem State.byteAt_writeByte_space (s : State) (sp sp' : Space) (i j : Nat) (v : Byte) (h : sp' ≠ sp) :
    (s.writeByte sp i v).byteAt sp' j = s.byteAt sp' j := by
  simp [State.byteAt, State.writeByte, State.buf_setBuf_other _ _ _ _ h]

theorem State.byteAt_writeBytes_outside (s : State) (sp : Space) (i j : Nat) (vs : List Byte)
    (h : j < i ∨ i + vs.length ≤ j) : (s.writeBytes sp i vs).byteAt sp j = s.byteAt sp j := by
  simp [State.byteAt, State.writeBytes, Memory.lookup_writeAll_outside _ _ _ _ h]

theorem State.byteAt_writeBytes_inside (s : State) (sp : Space) (i k : Nat) (vs : List Byte) (h : k < vs.length) :
    (s.writeBytes sp i vs).byteAt sp (i + k) = vs[k] := by
  simp [State.byteAt, State.writeBytes, Memory.lookup_writeAll_inside _ _ _ _ h]

theorem State.byteAt_writeBytes_space (s : State) (sp sp' : Space) (i j : Nat) (vs : List Byte) (h : sp' ≠ sp) :
    (s.writeBytes sp i vs).byteAt sp' j = s.byteAt sp' j := by
  simp [State.byteAt, State.writeBytes, State.buf_setBuf_other _ _ _ _ h]

/-! ### Runs of bytes -/

@[simp] theorem State.length_bytes (s : State) (sp : Space) (i n : Nat) : (s.bytes sp i n).length = n := by
  simp [State.bytes]

@[simp] theorem State.bytes_zero (s : State) (sp : Space) (i : Nat) : s.bytes sp i 0 = [] := rfl

theorem State.bytes_succ (s : State) (sp : Space) (i n : Nat) :
    s.bytes sp i (n + 1) = s.bytes sp i n ++ [s.byteAt sp (i + n)] := by
  simp [State.bytes, List.range_succ]

theorem State.getElem_bytes (s : State) (sp : Space) (i n k : Nat) (h : k < (s.bytes sp i n).length) :
    (s.bytes sp i n)[k] = s.byteAt sp (i + k) := by
  simp [State.bytes]

theorem State.bytes_congr (s t : State) (sp : Space) (i n : Nat) (h : ∀ k, k < n → t.byteAt sp (i + k) = s.byteAt sp (i + k)) :
    t.bytes sp i n = s.bytes sp i n := by
  simp only [State.bytes]
  exact List.map_congr_left fun k hk => h k (List.mem_range.mp hk)

/-! ### `memRead` and `memWrite` -/

/-- Everything `memRead` can do. -/
theorem memRead_cases (sp : Space) (i : Nat) (s : State) :
    (i < s.cfg.size sp ∧ memRead sp i s = .ok (s.byteAt sp i)) ∨
    (s.cfg.size sp ≤ i ∧ memRead sp i s = .error (.noSuchEntry sp i)) := by
  by_cases h : i < s.cfg.size sp
  · exact .inl ⟨h, if_pos h⟩
  · exact .inr ⟨Nat.le_of_not_lt h, if_neg h⟩

/-- Everything `memWrite` can do. -/
theorem memWrite_cases (sp : Space) (i : Nat) (v : Byte) (s : State) :
    (i < s.cfg.size sp ∧ memWrite sp i v s = .ok (s.writeByte sp i v)) ∨
    (s.cfg.size sp ≤ i ∧ memWrite sp i v s = .error (.noSuchEntry sp i)) := by
  by_cases h : i < s.cfg.size sp
  · exact .inl ⟨h, if_pos h⟩
  · exact .inr ⟨Nat.le_of_not_lt h, if_neg h⟩

/-! ### `respond` -/

/-- A response always completes its step; only `resp` is added to the state the command leaves. -/
theorem respond_eq_next (r : Result) (d : Byte) (s t : State) :
    respond r d s = .next t ↔ t = { s with resp := some ⟨r, d⟩ } := by
  simp [respond, eq_comm]

/-- Giving a response leaves the whole state unchanged. -/
theorem sameState_respond (s : State) (r : Option Response) : SameState s { s with resp := r } :=
  ⟨⟨rfl, ⟨rfl, rfl, rfl, rfl⟩, ⟨rfl, rfl⟩, fun _ => rfl⟩, ⟨rfl, fun _ => rfl, rfl, fun _ => rfl⟩, ⟨rfl, rfl, rfl⟩⟩

/-! ### Codes and the response word -/

theorem codeOfState_code (r : RxState) : CodeOfState r r.code := by constructor <;> rintro rfl <;> rfl

theorem codeOfResult_code (r : Result) : CodeOfResult r r.code := by constructor <;> rintro rfl <;> rfl

/-- RESULT stands in bits 10 to 8 of the response (R85). -/
theorem Response.result_word (r : Response) : r.word.extractLsb' 8 3 = r.result.code := by
  ext k hk
  rw [BitVec.getElem_extractLsb']
  show (r.result.code ++ r.rdata : BitVec (3 + 8)).getLsbD (8 + k) = _
  rw [BitVec.getLsbD_append]
  simp [BitVec.getLsbD_eq_getElem, hk]

/-- RDATA stands in bits 7 to 0 of the response (R85). -/
theorem Response.rdata_word (r : Response) : r.word.extractLsb' 0 8 = r.rdata := by
  ext k hk
  rw [BitVec.getElem_extractLsb']
  show (r.result.code ++ r.rdata : BitVec (3 + 8)).getLsbD (0 + k) = _
  rw [BitVec.getLsbD_append]
  simp [BitVec.getLsbD_eq_getElem, hk]

/-! ### The step on each kind of input -/

theorem step_idle (s : State) (h : s.port = []) : step s = .next s.idle := by simp [step, h]

theorem step_rst (s : State) (rest : List PortInput) (h : s.port = .rst :: rest) :
    step s = .next { s with port := rest }.takeReset := by simp [step, h]

theorem step_command (s : State) (w : CommandWord) (rest : List PortInput) (h : s.port = .command w :: rest) :
    step s = runWord w { s with port := rest } := by simp [step, h]

/-- A word presented at the head of the port is the one that the next step runs. -/
theorem step_present (s : State) (w : CommandWord) : step (s.present w) = runWord w s := rfl

end Sys2Proof.Machine
end

