-- ==== Sys2Proof/Laws/Exec.lean ====
section
/-! SUPPORT. What each meaning answers, one equation per path, so that later proofs rewrite with it and do not unfold it. -/

namespace Sys2Proof.Machine

/-! ### PB: the row that the state selects (R130) -/

theorem execPb_ready (b : Byte) (s : State) (h : s.rxState.ready = true) : execPb b s = pbWaitStart b s := by
  cases hs : s.rxState <;> simp [hs, RxState.ready] at h <;> simp [execPb, hs]

theorem execPb_waitLength (b : Byte) (s : State) (h : s.rxState = .waitLength) : execPb b s = pbWaitLength b s := by
  simp [execPb, h]

theorem execPb_waitData (b : Byte) (s : State) (h : s.rxState = .waitData) : execPb b s = pbWaitData b s := by
  simp [execPb, h]

theorem execPb_waitChecksum (b : Byte) (s : State) (h : s.rxState = .waitChecksum) : execPb b s = pbWaitChecksum b s := by
  simp [execPb, h]

theorem execPb_waitEnd (b : Byte) (s : State) (h : s.rxState = .waitEnd) : execPb b s = pbWaitEnd b s := by
  simp [execPb, h]

/-! ### The rows (R132 to R136) -/

theorem pbWaitStart_stx (b : Byte) (s : State) (h : b = s.cfg.stx) :
    pbWaitStart b s = .next { s with
      rxCnt := 0, rxCchk := 0x00, frameReady := false, rxState := .waitLength, resp := some ⟨.waiting, 0x00⟩ } := by
  simp [pbWaitStart, h, respond]

theorem pbWaitStart_other (b : Byte) (s : State) (h : b ≠ s.cfg.stx) :
    pbWaitStart b s = .next { s with rxState := .waitStart, resp := some ⟨.waiting, 0x00⟩ } := by
  simp [pbWaitStart, h, respond]

theorem pbWaitLength_legal (b : Byte) (s : State) (h : legalLength s.cfg b.toNat = true) :
    pbWaitLength b s = .next { s with rxLen := b, rxState := .waitData, resp := some ⟨.waiting, 0x00⟩ } := by
  simp [pbWaitLength, h, respond]

theorem pbWaitLength_illegal (b : Byte) (s : State) (h : legalLength s.cfg b.toNat = false) :
    pbWaitLength b s = .next { s with rxState := .waitStart, resp := some ⟨.waiting, 0x00⟩ } := by
  simp [pbWaitLength, h, respond]

theorem pbWaitData_inside (b : Byte) (s : State) (h : s.rxCnt.toNat < s.cfg.maxData) :
    pbWaitData b s = .next { s.writeByte .rxBuf s.rxCnt.toNat b with
      rxCchk := chkFold s.cfg.alg s.rxCchk b
      rxCnt := BitVec.ofNat 8 (s.rxCnt.toNat + 1)
      rxState := if s.rxCnt.toNat + 1 = s.rxLen.toNat then .waitChecksum else .waitData
      resp := some ⟨.waiting, 0x00⟩ } := by
  have hm : memWrite .rxBuf s.rxCnt.toNat b s = .ok (s.writeByte .rxBuf s.rxCnt.toNat b) := if_pos h
  simp only [pbWaitData, hm, respond]

theorem pbWaitData_outside (b : Byte) (s : State) (h : s.cfg.maxData ≤ s.rxCnt.toNat) :
    pbWaitData b s = .fault (.noSuchEntry .rxBuf s.rxCnt.toNat) := by
  have hm : memWrite .rxBuf s.rxCnt.toNat b s = .error (.noSuchEntry .rxBuf s.rxCnt.toNat) := if_neg (Nat.not_lt.mpr h)
  simp only [pbWaitData, hm]

theorem pbWaitEnd_success (b : Byte) (s : State) (hb : b = s.cfg.etx) (hc : s.rxRchk = s.rxCchk) :
    pbWaitEnd b s = .next { s with
      frameReady := true, sendAck := true, rxState := .messageReady, resp := some ⟨.success, s.rxLen⟩ } := by
  simp [pbWaitEnd, hb, hc, respond]

theorem pbWaitEnd_error (b : Byte) (s : State) (h : b ≠ s.cfg.etx ∨ s.rxRchk ≠ s.rxCchk) :
    pbWaitEnd b s = .next { s with
      rxState := .messageError
      resp := some ⟨.error, errorCause (decide (s.rxRchk ≠ s.rxCchk)) (decide (b ≠ s.cfg.etx))⟩ } := by
  have : (decide (b ≠ s.cfg.etx) || decide (s.rxRchk ≠ s.rxCchk)) = true := by simpa using h
  simp only [pbWaitEnd, this, if_true, respond]

/-! ### Reads and the framer -/

theorem respondRead_inside (sp : Space) (i : Nat) (s : State) (h : i < s.cfg.size sp) :
    respondRead sp i s = .next { s with resp := some ⟨.ok, s.byteAt sp i⟩ } := by
  have hm : memRead sp i s = .ok (s.byteAt sp i) := if_pos h
  simp only [respondRead, hm, respond]

theorem respondRead_outside (sp : Space) (i : Nat) (s : State) (h : s.cfg.size sp ≤ i) :
    respondRead sp i s = .fault (.noSuchEntry sp i) := by
  have hm : memRead sp i s = .error (.noSuchEntry sp i) := if_neg (Nat.not_lt.mpr h)
  simp only [respondRead, hm]

theorem invalidParam_eq (s : State) : invalidParam s = .next { s with resp := some ⟨.invalidParam, 0x00⟩ } := rfl

theorem illegalCommand_eq (s : State) : illegalCommand s = .next { s with resp := some ⟨.illegalCmd, 0x00⟩ } := rfl

theorem execRdrx_inside (i : Index) (s : State) (h : i.toNat < s.cfg.maxData) :
    execRdrx i s = .next { s with resp := some ⟨.ok, s.byteAt .rxBuf i.toNat⟩ } := by
  rw [execRdrx, if_neg (Nat.not_le.mpr h), respondRead_inside _ _ _ h]

theorem execRdrx_outside (i : Index) (s : State) (h : s.cfg.maxData ≤ i.toNat) : execRdrx i s = invalidParam s := if_pos h

theorem execWrtx_inside (i : Index) (b : Byte) (s : State) (h : i.toNat < s.cfg.maxData) :
    execWrtx i b s = .next { s.writeByte .txBuf i.toNat b with resp := some ⟨.ok, 0x00⟩ } := by
  have hm : memWrite .txBuf i.toNat b s = .ok (s.writeByte .txBuf i.toNat b) := if_pos h
  rw [execWrtx, if_neg (Nat.not_le.mpr h)]
  simp only [hm, respond]

theorem execWrtx_outside (i : Index) (b : Byte) (s : State) (h : s.cfg.maxData ≤ i.toNat) :
    execWrtx i b s = invalidParam s := if_pos h

theorem execChk_legal (s : State) (h : s.txLen.toNat ≤ s.cfg.maxData) :
    execChk s = .next { s with resp := some ⟨.ok, checksum s.cfg.alg s.payload⟩ } := by
  rw [execChk, if_neg (Nat.not_lt.mpr h), respond]

theorem execChk_illegal (s : State) (h : s.cfg.maxData < s.txLen.toNat) : execChk s = invalidParam s := if_pos h

theorem execRdf_built (i : Index) (s : State) (h : i.toNat < s.fLen.toNat) : execRdf i s = respondRead .fBuf i.toNat s :=
  if_neg (Nat.not_le.mpr h)

theorem execRdf_outside (i : Index) (s : State) (h : s.fLen.toNat ≤ i.toNat) : execRdf i s = invalidParam s := if_pos h

theorem execEnc_legal (s : State) (h : legalLength s.cfg s.txLen.toNat = true) :
    execEnc s = .next { s.writeBytes .fBuf 0 (wireFrame s.cfg s.payload) with
      fLen := BitVec.setWidth 9 s.txLen + 4, resp := some ⟨.ok, checksum s.cfg.alg s.payload⟩ } := by
  simp only [execEnc, h, if_true, respond]

theorem execEnc_illegal (s : State) (h : legalLength s.cfg s.txLen.toNat = false) : execEnc s = invalidParam s := by
  simp [execEnc, h]

/-! ### The shape of a frame -/

@[simp] theorem State.length_payload (s : State) : s.payload.length = s.txLen.toNat := by simp [State.payload]

/-- FLEN after a build is TXLEN + 4, "computed in 9 bits without wrap" (R79). -/
theorem toNat_frameLength (n : Byte) : (BitVec.setWidth 9 n + 4).toNat = n.toNat + 4 := by
  have := n.isLt
  rw [BitVec.toNat_add, BitVec.toNat_setWidth]
  have : (4 : BitVec 9).toNat = 4 := rfl
  omega

end Sys2Proof.Machine
end

