-- ==== Sys2Proof/Laws/Effect.lean ====
section
/-! SUPPORT. The one inversion of `exec`: everything a command can do when it completes. Proofs about all commands cite
`exec_effect` and take its cases, and do not unfold the meanings. -/

namespace Sys2Proof.Machine

/-- The commands that answer and write no state, and what they may answer: reads, NOP, the reserved rows, and WRTX and ENC turned away. -/
structure AnswersOnly (i : Instr) (r : Response) : Prop where
  notPb : ∀ b, i ≠ .pb b
  notClrf : ∀ m, i ≠ .clrf m
  notInit : i ≠ .init
  notSetlen : ∀ b, i ≠ .setlen b
  wrtx : ∀ k b, i = .wrtx k b → r.result = .invalidParam
  enc : i = .enc → r.result = .invalidParam
  result : r.result = .ok ∨ r.result = .invalidParam ∨ r.result = .illegalCmd

/-- `Effect i s t`: command `i` completes in state `s` with state `t`, one constructor per path that writes state. -/
inductive Effect : Instr → State → State → Prop where
  | pbStx (b : Byte) (s : State) (ready : s.rxState.ready = true) (stx : b = s.cfg.stx) :
    Effect (.pb b) s { s with
      rxCnt := 0, rxCchk := 0x00, frameReady := false, rxState := .waitLength, resp := some ⟨.waiting, 0x00⟩ }
  | pbDiscard (b : Byte) (s : State) (ready : s.rxState.ready = true) (stx : b ≠ s.cfg.stx) :
    Effect (.pb b) s { s with rxState := .waitStart, resp := some ⟨.waiting, 0x00⟩ }
  | pbLength (b : Byte) (s : State) (state : s.rxState = .waitLength) (legal : legalLength s.cfg b.toNat = true) :
    Effect (.pb b) s { s with rxLen := b, rxState := .waitData, resp := some ⟨.waiting, 0x00⟩ }
  | pbBadLength (b : Byte) (s : State) (state : s.rxState = .waitLength) (legal : legalLength s.cfg b.toNat = false) :
    Effect (.pb b) s { s with rxState := .waitStart, resp := some ⟨.waiting, 0x00⟩ }
  | pbData (b : Byte) (s : State) (state : s.rxState = .waitData) (inside : s.rxCnt.toNat < s.cfg.maxData) :
    Effect (.pb b) s { s.writeByte .rxBuf s.rxCnt.toNat b with
      rxCchk := chkFold s.cfg.alg s.rxCchk b
      rxCnt := BitVec.ofNat 8 (s.rxCnt.toNat + 1)
      rxState := if s.rxCnt.toNat + 1 = s.rxLen.toNat then .waitChecksum else .waitData
      resp := some ⟨.waiting, 0x00⟩ }
  | pbChecksum (b : Byte) (s : State) (state : s.rxState = .waitChecksum) :
    Effect (.pb b) s { s with rxRchk := b, rxState := .waitEnd, resp := some ⟨.waiting, 0x00⟩ }
  | pbSuccess (b : Byte) (s : State) (state : s.rxState = .waitEnd) (etx : b = s.cfg.etx) (chk : s.rxRchk = s.rxCchk) :
    Effect (.pb b) s { s with
      frameReady := true, sendAck := true, rxState := .messageReady, resp := some ⟨.success, s.rxLen⟩ }
  | pbError (b : Byte) (s : State) (state : s.rxState = .waitEnd) (bad : b ≠ s.cfg.etx ∨ s.rxRchk ≠ s.rxCchk) :
    Effect (.pb b) s { s with
      rxState := .messageError
      resp := some ⟨.error, errorCause (decide (s.rxRchk ≠ s.rxCchk)) (decide (b ≠ s.cfg.etx))⟩ }
  | clrf (m : Byte) (s : State) :
    Effect (.clrf m) s { s with
      frameReady := clearedFlag s.frameReady (m.getLsbD 0)
      sendAck := clearedFlag s.sendAck (m.getLsbD 1)
      resp := some ⟨.ok, 0x00⟩ }
  | init (s : State) :
    Effect .init s { s with
      rxState := .waitStart, rxLen := 0x00, rxCnt := 0x00, rxRchk := 0x00, rxCchk := 0x00, frameReady := false,
      sendAck := false, resp := some ⟨.ok, 0x00⟩ }
  | wrtx (i : Index) (b : Byte) (s : State) (inside : i.toNat < s.cfg.maxData) :
    Effect (.wrtx i b) s { s.writeByte .txBuf i.toNat b with resp := some ⟨.ok, 0x00⟩ }
  | setlen (b : Byte) (s : State) : Effect (.setlen b) s { s with txLen := b, resp := some ⟨.ok, 0x00⟩ }
  | enc (s : State) (legal : legalLength s.cfg s.txLen.toNat = true) :
    Effect .enc s { s.writeBytes .fBuf 0 (wireFrame s.cfg s.payload) with
      fLen := BitVec.setWidth 9 s.txLen + 4, resp := some ⟨.ok, checksum s.cfg.alg s.payload⟩ }
  | answer (i : Instr) (s : State) (r : Response) (only : AnswersOnly i r) : Effect i s { s with resp := some r }

/-- A read answers only. -/
theorem respondRead_effect (i : Instr) (sp : Space) (n : Nat) (s t : State) (h : respondRead sp n s = .next t)
    (hi : ∀ r, r.result = .ok → AnswersOnly i r) : Effect i s t := by
  rcases Nat.lt_or_ge n (s.cfg.size sp) with hn | hn
  · rw [respondRead_inside sp n s hn] at h
    cases h
    exact .answer _ _ _ (hi _ rfl)
  · rw [respondRead_outside sp n s hn] at h
    cases h

/-- INVALID_PARAM answers only. -/
theorem invalidParam_effect (i : Instr) (s t : State) (h : invalidParam s = .next t)
    (hi : AnswersOnly i ⟨.invalidParam, 0x00⟩) : Effect i s t := by
  rw [invalidParam_eq] at h
  cases h
  exact .answer _ _ _ hi

/-- ILLEGAL_CMD answers only. -/
theorem illegalCommand_effect (i : Instr) (s t : State) (h : illegalCommand s = .next t)
    (hi : AnswersOnly i ⟨.illegalCmd, 0x00⟩) : Effect i s t := by
  rw [illegalCommand_eq] at h
  cases h
  exact .answer _ _ _ hi

theorem execPb_effect (b : Byte) (s t : State) (h : execPb b s = .next t) : Effect (.pb b) s t := by
  have ready (hr : s.rxState.ready = true) : Effect (.pb b) s t := by
    rw [execPb_ready b s hr] at h
    by_cases hb : b = s.cfg.stx
    · rw [pbWaitStart_stx b s hb] at h; cases h; exact .pbStx b s hr hb
    · rw [pbWaitStart_other b s hb] at h; cases h; exact .pbDiscard b s hr hb
  cases hs : s.rxState with
  | waitStart => exact ready (by rw [hs]; rfl)
  | messageReady => exact ready (by rw [hs]; rfl)
  | messageError => exact ready (by rw [hs]; rfl)
  | waitLength =>
    rw [execPb_waitLength b s hs] at h
    cases hb : legalLength s.cfg b.toNat with
    | true => rw [pbWaitLength_legal b s hb] at h; cases h; exact .pbLength b s hs hb
    | false => rw [pbWaitLength_illegal b s hb] at h; cases h; exact .pbBadLength b s hs hb
  | waitData =>
    rw [execPb_waitData b s hs] at h
    rcases Nat.lt_or_ge s.rxCnt.toNat s.cfg.maxData with hc | hc
    · rw [pbWaitData_inside b s hc] at h; cases h; exact .pbData b s hs hc
    · rw [pbWaitData_outside b s hc] at h; cases h
  | waitChecksum =>
    rw [execPb_waitChecksum b s hs] at h; cases h; exact .pbChecksum b s hs
  | waitEnd =>
    rw [execPb_waitEnd b s hs] at h
    by_cases hg : b = s.cfg.etx ∧ s.rxRchk = s.rxCchk
    · rw [pbWaitEnd_success b s hg.1 hg.2] at h; cases h; exact .pbSuccess b s hs hg.1 hg.2
    · have hbad : b ≠ s.cfg.etx ∨ s.rxRchk ≠ s.rxCchk := by
        by_cases hb : b = s.cfg.etx
        · exact .inr fun hc => hg ⟨hb, hc⟩
        · exact .inl hb
      rw [pbWaitEnd_error b s hbad] at h; cases h; exact .pbError b s hs hbad

/-- Everything a command can do when it completes. -/
theorem exec_effect (i : Instr) (s t : State) (h : exec i s = .next t) : Effect i s t := by
  cases i with
  | nop => cases h; exact .answer _ _ _ (by constructor <;> simp)
  | pb b => exact execPb_effect b s t h
  | rdreg k =>
    rw [exec, execRdreg] at h
    split at h
    · cases h; exact .answer _ _ _ (by constructor <;> simp)
    · exact invalidParam_effect _ _ _ h (by constructor <;> simp)
  | rdrx k =>
    rw [exec, execRdrx] at h
    split at h
    · exact invalidParam_effect _ _ _ h (by constructor <;> simp)
    · exact respondRead_effect _ _ _ _ _ h fun r hr => by constructor <;> simp [hr]
  | clrf m => cases h; exact .clrf m s
  | init => cases h; exact .init s
  | wrtx k b =>
    rw [exec] at h
    rcases Nat.lt_or_ge k.toNat s.cfg.maxData with hk | hk
    · rw [execWrtx_inside k b s hk] at h; cases h; exact .wrtx k b s hk
    · rw [execWrtx_outside k b s hk] at h
      exact invalidParam_effect _ _ _ h (by constructor <;> simp)
  | setlen b => cases h; exact .setlen b s
  | enc =>
    rw [exec] at h
    cases hl : legalLength s.cfg s.txLen.toNat with
    | true => rw [execEnc_legal s hl] at h; cases h; exact .enc s hl
    | false =>
      rw [execEnc_illegal s hl] at h
      exact invalidParam_effect _ _ _ h (by constructor <;> simp)
  | rdf k =>
    rw [exec, execRdf] at h
    split at h
    · exact invalidParam_effect _ _ _ h (by constructor <;> simp)
    · exact respondRead_effect _ _ _ _ _ h fun r hr => by constructor <;> simp [hr]
  | chk =>
    rw [exec, execChk] at h
    split at h
    · exact invalidParam_effect _ _ _ h (by constructor <;> simp)
    · cases h; exact .answer _ _ _ (by constructor <;> simp)
  | reservedB => exact illegalCommand_effect _ _ _ h (by constructor <;> simp)
  | reservedC => exact illegalCommand_effect _ _ _ h (by constructor <;> simp)
  | reservedD => exact illegalCommand_effect _ _ _ h (by constructor <;> simp)
  | reservedE => exact illegalCommand_effect _ _ _ h (by constructor <;> simp)
  | reservedF => exact illegalCommand_effect _ _ _ h (by constructor <;> simp)

end Sys2Proof.Machine
end

