-- ==== Sys2Proof/Laws/PerInstr.lean ====
section
/-! SUPPORT. Facts about every command as syntax, one lemma per constructor. -/

namespace Sys2Proof.Laws.EncodeInRow

/-- The encoder's word has RSV 000 (R81, R83), and its OP is the one of the command's row in the opcode table (R82). -/
def Statement (i : Instr) : Prop :=
  rsvField (encode i) = 0#3 ∧ opField (encode i) = opField i.row.value

theorem nop : Statement .nop := ⟨by decide, by decide⟩
theorem pb (b : Byte) : Statement (.pb b) := ⟨by simp [encode], by simp [encode, Instr.row]; decide⟩
theorem rdreg (i : Index) : Statement (.rdreg i) := ⟨by simp [encode], by simp [encode, Instr.row]; decide⟩
theorem rdrx (i : Index) : Statement (.rdrx i) := ⟨by simp [encode], by simp [encode, Instr.row]; decide⟩
theorem clrf (m : Byte) : Statement (.clrf m) := ⟨by simp [encode], by simp [encode, Instr.row]; decide⟩
theorem init : Statement .init := ⟨by decide, by decide⟩
theorem wrtx (i : Index) (b : Byte) : Statement (.wrtx i b) := ⟨by simp [encode], by simp [encode, Instr.row]; decide⟩
theorem setlen (b : Byte) : Statement (.setlen b) := ⟨by simp [encode], by simp [encode, Instr.row]; decide⟩
theorem enc : Statement .enc := ⟨by decide, by decide⟩
theorem rdf (i : Index) : Statement (.rdf i) := ⟨by simp [encode], by simp [encode, Instr.row]; decide⟩
theorem chk : Statement .chk := ⟨by decide, by decide⟩
theorem reservedB : Statement .reservedB := ⟨by decide, by decide⟩
theorem reservedC : Statement .reservedC := ⟨by decide, by decide⟩
theorem reservedD : Statement .reservedD := ⟨by decide, by decide⟩
theorem reservedE : Statement .reservedE := ⟨by decide, by decide⟩
theorem reservedF : Statement .reservedF := ⟨by decide, by decide⟩

end Sys2Proof.Laws.EncodeInRow
end

