-- ==== Sys2Proof/Tests/Slice0.lean ====
section
/-! SUPPORT. Small tests of the model, each with its expected result taken from the spec (95_test_vectors.md unless another place is
named), and a witness for the hypotheses of each statement. -/

namespace Sys2Proof.Tests

open Sys2Proof Sys2Proof.Machine

/-! ### States for the tests -/

/-- The build of D-R4 and P5: MAX_DATA = 4, the other parameters at their defaults. -/
def smallBuild : Config := { Config.standard with maxData := 4, maxData_pos := by decide, maxData_le := by decide }

/-- The build of D-C15: CHK_ALG = SUM8. -/
def sumBuild : Config := { Config.standard with alg := .sum8 }

/-- A block of the small build right after power-on. -/
def freshState : State := State.powerOn smallBuild

/-- WaitLength, as an accepted STX leaves it. -/
def lengthState : State := { freshState with rxState := .waitLength }

/-- D-R8's state: the second byte of two, after 0x03. -/
def dataState : State :=
  { freshState with rxState := .waitData, rxLen := 2, rxCnt := 1, rxCchk := 0x03, rxBuf := [(0, 0x03)] }

/-- WaitChecksum, after the one data byte 0x5A. -/
def checksumState : State :=
  { freshState with rxState := .waitChecksum, rxLen := 1, rxCnt := 1, rxCchk := 0x5A, rxBuf := [(0, 0x5A)] }

/-- WaitEnd, with the checksums equal. -/
def endState : State := { checksumState with rxState := .waitEnd, rxRchk := 0x5A }

/-- The state after S1 as far as the flags go: MessageReady with both flags set. -/
def readyState : State := { endState with rxState := .messageReady, frameReady := true, sendAck := true }

/-- The framer loaded with the payload 11 22 33 of S1. -/
def loadedState : State := { State.reset with txLen := 3, txBuf := [(0, 0x11), (1, 0x22), (2, 0x33)] }

/-- The framer of the small build loaded with the payload 5A. -/
def smallLoadedState : State := { freshState with txLen := 1, txBuf := [(0, 0x5A)] }

/-- P5 as its last data byte is due, RXBUF then one short of full, with the frame of 01 02 03 04, the longest of the small build, in FBUF. -/
def fullState : State :=
  { freshState with
    rxState := .waitData, rxLen := 4, rxCnt := 3, rxCchk := 0x00, rxBuf := [(0, 0x01), (1, 0x02), (2, 0x03)], fLen := 8
    fBuf := [(0, 0x02), (1, 0x04), (2, 0x01), (3, 0x02), (4, 0x03), (5, 0x04), (6, 0x04), (7, 0x03)] }

/-- The next state of an outcome, if it has one. -/
def nextOf (o : Host.Outcome State Fault Refusal) : Option State :=
  match o with
  | .next s => some s
  | .fault _ => none
  | .refused _ => none

/-- The response of an outcome, if it has one. -/
def respOf (o : Host.Outcome State Fault Refusal) : Option Response := (nextOf o).bind State.resp

/-! ### Decoding: a word for each row, written out bit by bit as OP, RSV, IDX, BYTE (R81, R82) -/

theorem test_decode_nop : decode (0b0000#4 ++ 0b000#3 ++ 0b111111111#9 ++ 0b11111111#8) = .ok .nop := by decide
theorem test_decode_pb : decode (0b0001#4 ++ 0b000#3 ++ 0b101010101#9 ++ 0b00000010#8) = .ok (.pb 0x02) := by decide
theorem test_decode_rdreg : decode (0b0010#4 ++ 0b000#3 ++ 0b111111111#9 ++ 0b00000000#8) = .ok (.rdreg 0x1FF) := by decide
theorem test_decode_rdrx : decode (0b0011#4 ++ 0b000#3 ++ 0b000000010#9 ++ 0b10000001#8) = .ok (.rdrx 2) := by decide
theorem test_decode_clrf : decode (0b0100#4 ++ 0b000#3 ++ 0b000000000#9 ++ 0b00000011#8) = .ok (.clrf 0x03) := by decide
theorem test_decode_init : decode (0b0101#4 ++ 0b000#3 ++ 0b000000001#9 ++ 0b00000001#8) = .ok .init := by decide
theorem test_decode_wrtx : decode (0b0110#4 ++ 0b000#3 ++ 0b100101100#9 ++ 0b00000001#8) = .ok (.wrtx 300 1) := by decide
theorem test_decode_setlen : decode (0b0111#4 ++ 0b000#3 ++ 0b000000000#9 ++ 0b00000011#8) = .ok (.setlen 3) := by decide
theorem test_decode_enc : decode (0b1000#4 ++ 0b000#3 ++ 0b000000000#9 ++ 0b00000000#8) = .ok .enc := by decide
theorem test_decode_rdf : decode (0b1001#4 ++ 0b000#3 ++ 0b100000010#9 ++ 0b00000000#8) = .ok (.rdf 258) := by decide
theorem test_decode_chk : decode (0b1010#4 ++ 0b000#3 ++ 0b000000000#9 ++ 0b00000000#8) = .ok .chk := by decide
theorem test_decode_reservedB : decode (0b1011#4 ++ 0b111#3 ++ 0b000000000#9 ++ 0b00000000#8) = .ok .reservedB := by decide
theorem test_decode_reservedC : decode (0b1100#4 ++ 0b000#3 ++ 0b111111111#9 ++ 0b00000000#8) = .ok .reservedC := by decide
theorem test_decode_reservedD : decode (0b1101#4 ++ 0b001#3 ++ 0b000000000#9 ++ 0b11111111#8) = .ok .reservedD := by decide
theorem test_decode_reservedE : decode (0b1110#4 ++ 0b000#3 ++ 0b000000000#9 ++ 0b00000000#8) = .ok .reservedE := by decide
theorem test_decode_reservedF : decode (0b1111#4 ++ 0b111#3 ++ 0b111111111#9 ++ 0b11111111#8) = .ok .reservedF := by decide

/-- D-G11: PB with RSV = 001. -/
theorem test_decode_rejects_rsv : decode 0x120005 = .error (.reservedField 0x1 0b001) := by decide

/-- The host's numbering: RDF 258 is 0x910200 (R89). -/
theorem test_decodeTableWord : decodeTableWord 24 0x910200 = some (.rdf 258) := by decide

/-! ### The checks of WellFormed refuse ill-formed lines (R79, R87, R88) -/

theorem test_wf_refuses_byte : AsmLine.wf (.pb 256) = false := by decide
theorem test_wf_refuses_mask : AsmLine.wf (.clrf 256) = false := by decide
theorem test_wf_refuses_length : AsmLine.wf (.setlen 256) = false := by decide
theorem test_wf_refuses_register_index : AsmLine.wf (.rdreg (.index 512)) = false := by decide
theorem test_wf_refuses_rdrx_index : AsmLine.wf (.rdrx 512) = false := by decide
theorem test_wf_refuses_rdf_index : AsmLine.wf (.rdf 512) = false := by decide
theorem test_wf_refuses_wrtx_index : AsmLine.wf (.wrtx 512 0) = false := by decide
theorem test_wf_refuses_wrtx_byte : AsmLine.wf (.wrtx 0 256) = false := by decide
theorem test_wf_refuses_empty_feed : AsmLine.wf (.feed []) = false := by decide
theorem test_wf_refuses_feed_byte : AsmLine.wf (.feed [0, 256]) = false := by decide
theorem test_wf_refuses_empty_loadtx : AsmLine.wf (.loadtx []) = false := by decide
theorem test_wf_refuses_loadtx_byte : AsmLine.wf (.loadtx [256]) = false := by decide
theorem test_wf_refuses_long_send : AsmLine.wf (.send (List.replicate 256 0)) = false := by
  simp only [AsmLine.wf, payloadOk, byteOk, List.length_replicate]; rfl
theorem test_wf_refuses_echo : AsmLine.wf (.echo 512) = false := by decide
theorem test_wf_refused_line_has_no_words : assemble (.pb 256) = none := by decide

/-- P4: LOADTX 0x11, 0x22, 0x33. -/
theorem test_assemble_loadtx : assemble (.loadtx [0x11, 0x22, 0x33]) = some [0x600011, 0x600122, 0x600233, 0x700003] := by decide

/-- R89: RDREG STATUS is 0x200000; the last of R36's names is CFG_ALG, index 0x00B. -/
theorem test_assemble_rdreg : assemble (.rdreg (.name .CFG_ALG)) = some [0x200B00] := by decide

/-! ### The checksum fold (2.1) -/

theorem test_checksum_K2 : checksum .xor [0x11, 0x22, 0x33] = 0x00 := by decide
theorem test_checksum_K6_start : checksum .xor [0x00, 0x01, 0x02, 0xFE] = 0xFD := by decide
theorem test_checksum_K8_wraps : checksum .sum8 [0xFF, 0x01] = 0x00 := by decide
theorem test_checksum_K9 : checksum .sum8 [0x80, 0x80, 0x80] = 0x80 := by decide

/-! ### One step of each command -/

/-- D-G2. -/
theorem test_nop : respOf (exec .nop freshState) = some ⟨.ok, 0x00⟩ := by decide

/-- D-R8. -/
theorem test_pb_data : (nextOf (exec (.pb 0x02) dataState)).map (fun t => (t.rxState, t.rxBuf, t.rxCnt, t.rxCchk)) =
    some (.waitChecksum, [(0, 0x03), (1, 0x02)], 2, 0x01) := by decide

/-- D-R13. -/
theorem test_pb_error : respOf (exec (.pb 0x04) { endState with rxRchk := 0x08, rxCchk := 0x07 }) = some ⟨.error, 0x03⟩ := by
  decide

/-- D-G4. -/
theorem test_rdreg_status : respOf (exec (.rdreg 0x000) readyState) = some ⟨.ok, 0x1D⟩ := by decide

/-- D-C11: FLEN_HI of a 259-byte frame. -/
theorem test_rdreg_flen_hi : respOf (exec (.rdreg 0x007) { freshState with fLen := 259 }) = some ⟨.ok, 0x01⟩ := by decide

/-- P2: RDRX 0 after the frame 02 01 5A 5A 03. -/
theorem test_rdrx : respOf (exec (.rdrx 0) readyState) = some ⟨.ok, 0x5A⟩ := by decide

/-- D-H6. -/
theorem test_rdrx_out_of_range : respOf (exec (.rdrx 255) State.reset) = some ⟨.invalidParam, 0x00⟩ := by decide

/-- D-H1. -/
theorem test_clrf_ack : (nextOf (exec (.clrf 0x02) readyState)).map (fun t => (t.sendAck, t.frameReady, t.rxState)) =
    some (false, true, .messageReady) := by decide

/-- D-H3. -/
theorem test_clrf_ignores_high_bits : (nextOf (exec (.clrf 0xFC) readyState)).map (fun t => (t.sendAck, t.frameReady)) =
    some (true, true) := by decide

/-- D-H4: RXBUF survives INIT. -/
theorem test_init : (nextOf (exec .init dataState)).map (fun t => (t.rxState, t.rxLen, t.rxCnt, t.rxBuf)) =
    some (.waitStart, 0, 0, [(0, 0x03)]) := by decide

/-- D-C5. -/
theorem test_wrtx : (nextOf (exec (.wrtx 254 0xAB) State.reset)).map (·.txBuf) = some [(254, 0xAB)] := by decide

/-- P5: WRTX 4, 0x01 with MAX_DATA = 4. -/
theorem test_wrtx_out_of_range : respOf (exec (.wrtx 4 0x01) freshState) = some ⟨.invalidParam, 0x00⟩ := by decide

/-- R105's example. -/
theorem test_setlen : (nextOf (exec (.setlen 3) State.reset)).map (·.txLen) = some 3 := by decide

/-- D-C7. -/
theorem test_enc : (nextOf (exec .enc loadedState)).map (fun t => (t.frame, t.fLen, t.resp)) =
    some ([0x02, 0x03, 0x11, 0x22, 0x33, 0x00, 0x03], 7, some ⟨.ok, 0x00⟩) := by decide

/-- D-C15. -/
theorem test_enc_sum8 : (nextOf (exec .enc { loadedState with cfg := sumBuild })).map (·.frame) =
    some [0x02, 0x03, 0x11, 0x22, 0x33, 0x66, 0x03] := by decide

/-- D-C8 and D-C9, over the frame of D-C7. -/
theorem test_rdf : ((nextOf (exec .enc loadedState)).map fun t => (respOf (exec (.rdf 6) t), respOf (exec (.rdf 7) t))) =
    some (some ⟨.ok, 0x03⟩, some ⟨.invalidParam, 0x00⟩) := by decide

/-- D-C2. -/
theorem test_chk_empty : respOf (exec .chk State.reset) = some ⟨.ok, 0x00⟩ := by decide

/-- D-C16. -/
theorem test_chk_too_long : respOf (exec .chk { freshState with txLen := 5 }) = some ⟨.invalidParam, 0x00⟩ := by decide

/-- D-G10. -/
theorem test_reserved : [respOf (exec .reservedB freshState), respOf (exec .reservedC freshState),
    respOf (exec .reservedD freshState), respOf (exec .reservedE freshState), respOf (exec .reservedF freshState)] =
    List.replicate 5 (some ⟨.illegalCmd, 0x00⟩) := by decide

/-- D-G11, through the port. -/
theorem test_step_illegal_word : (nextOf (step (dataState.present 0x120005))).map (fun t => (t.resp, t.rxBuf, t.rxState)) =
    some (some ⟨.illegalCmd, 0x00⟩, [(0, 0x03)], .waitData) := by decide

/-- D-R4, through the port as the host places a word. -/
theorem test_step_bad_length : (nextOf (step (lengthState.withFetchWord 24 0x100005))).map (fun t => (t.rxState, t.rxLen)) =
    some (.waitStart, 0) := by decide

/-- R85: (SUCCESS, 0x03) is 001 in bits [10:8] and 0x03 in bits [7:0]. -/
theorem test_response_word : Response.word ⟨.success, 0x03⟩ = 0b00100000011#11 := by decide

/-- P5: the last data byte fills RXBUF. -/
theorem test_pb_last_entry : (nextOf (exec (.pb 0x04) fullState)).map (fun t => (t.rxState, t.rxCnt, t.rxCchk)) =
    some (.waitChecksum, 4, 0x04) := by decide

/-- R38, after a SUCCESS. -/
theorem test_outputs : (readyState.stateO, readyState.frameReadyO, readyState.sendAckO, readyState.msgReadyO, readyState.msgErrorO) =
    (5, true, true, true, false) := by decide

/-! ### Witnesses: states and operands that meet the hypotheses of the statements -/

theorem witness_ResetInputIsOneStep : { dataState with port := [.rst] }.port = .rst :: [] := rfl

theorem witness_IdlePortKeepsTheState : freshState.port = [] := rfl

theorem witness_StepRunsTheDecodedCommand :
    ({ freshState with port := [.command 0x00FFFF] }.port = .command 0x00FFFF :: [] ∧ decode 0x00FFFF = .ok .nop) ∧
    ({ freshState with port := [.command 0x020000] }.port = .command 0x020000 :: [] ∧
      decode 0x020000 = .error (.reservedField 0 1)) := by decide

theorem witness_EncodeOfDecodeClearsIgnoredBits : decode 0x01FFFF = .ok .nop := by decide

theorem witness_DecodingFollowsOpAndRsv :
    (rsvField 0x0E0000 ≠ 0#3 ∧ 0xB ≤ (opField 0xB00000).toNat) ∧
    (rsvField 0xA00000 = 0#3 ∧ (opField 0xA00000).toNat < 0xB) ∧
    (decode 0x100102 = .ok (.pb 2) ∧ 0x11FF02#24 &&& (Instr.pb 2).usedBits = 0x100102#24 &&& (Instr.pb 2).usedBits) := by decide

theorem witness_OpcodeTableAgreesWithDecoder :
    decode 0xA1FFFF = .ok .chk ∧ decode 0x0E0000 = .error (.reservedField 0 7) ∧
    (∃ r ∈ opcodeTable, r.selects 0xBFFFFF = true) :=
  ⟨by decide, by decide, Instr.row .reservedB, by decide, by decide⟩

theorem witness_AssembledLinesDecodeToTheirExpansion :
    AsmLine.wf (.wrtx 511 255) = true ∧ AsmLine.wf (.loadtx [255]) = true ∧ AsmLine.wf (.feed [0]) = true ∧
    AsmLine.wf (.echo 511) = true ∧ AsmLine.wf (.echo 0) = true ∧
    255 < 256 ∧ 511 < 512 := by decide

theorem witness_ReservedWordsAnswerIllegal :
    rsvField 0x020000 ≠ 0#3 ∧ 0xB ≤ (opField 0xB00000).toNat ∧ 0xB ≤ (opField 0xFFFFFF).toNat := by decide

theorem witness_PbInReadyStateSeeksStx :
    freshState.rxState.ready = true ∧ readyState.rxState.ready = true ∧
    (0x02 : Byte) = freshState.cfg.stx ∧ (0x01 : Byte) ≠ freshState.cfg.stx := by decide

theorem witness_PbInWaitLengthTakesTheLength :
    lengthState.rxState = .waitLength ∧
    (1 ≤ (1 : Byte).toNat ∧ (1 : Byte).toNat ≤ lengthState.cfg.maxData) ∧
    (1 ≤ (4 : Byte).toNat ∧ (4 : Byte).toNat ≤ lengthState.cfg.maxData) ∧
    lengthState.cfg.maxData < (5 : Byte).toNat := by decide

theorem witness_PbInWaitDataStoresTheByte :
    (dataState.rxState = .waitData ∧ dataState.rxCnt.toNat < dataState.cfg.maxData ∧
      dataState.rxCnt.toNat + 1 = dataState.rxLen.toNat) ∧
    ({ dataState with rxLen := 4 }.rxState = .waitData ∧ { dataState with rxLen := 4 }.rxCnt.toNat + 1 ≠
      { dataState with rxLen := 4 }.rxLen.toNat) := by decide

theorem witness_PbInWaitChecksumStoresTheChecksum : checksumState.rxState = .waitChecksum := rfl

theorem witness_PbInWaitEndDecidesTheFrame :
    (endState.rxState = .waitEnd ∧ (0x03 : Byte) = endState.cfg.etx ∧ (0x02 : Byte) ≠ endState.cfg.etx ∧
      endState.rxRchk = endState.rxCchk) ∧
    ({ endState with rxRchk := 0x5B }.rxState = .waitEnd ∧
      { endState with rxRchk := 0x5B }.rxRchk ≠ { endState with rxRchk := 0x5B }.rxCchk) := by decide

/-- A state in WaitEnd that meets the invariants. -/
theorem endState_inv : Inv endState where
  inData := by decide
  inTail := by decide
  inLength := by decide
  running := by decide
  count := by decide
  frameReady := by decide
  frameLength := by decide
  frame := by decide
  memory := by intro space; cases space <;> decide

/-- A state that holds a validated frame and meets the invariants. -/
theorem readyState_inv : Inv readyState where
  inData := by decide
  inTail := by decide
  inLength := by decide
  running := by decide
  count := by decide
  frameReady := by decide
  frameLength := by decide
  frame := by decide
  memory := by intro space; cases space <;> decide

theorem witness_PbIsTotal : Inv endState := endState_inv

/-- Each index of the map, and both builds of the last one. -/
theorem witness_RdregAnswersTheRegisterMap :
    (∀ n : Fin 0x00C, (BitVec.ofNat 9 n.val).toNat = n.val) ∧ 0x00C ≤ (0x00C : Index).toNat ∧ 0x00C ≤ (0x1FF : Index).toNat ∧
    freshState.cfg.alg = .xor ∧ { freshState with cfg := sumBuild }.cfg.alg = .sum8 := by decide

theorem witness_RdrxReadsTheReceiveBuffer :
    (3 : Index).toNat < freshState.cfg.maxData ∧ freshState.cfg.maxData ≤ (4 : Index).toNat := by decide

theorem witness_ClrfClearsTheMaskedFlags :
    (0x03 : Byte).getLsbD 0 = true ∧ (0xFC : Byte).getLsbD 0 = false ∧ (0x02 : Byte).getLsbD 1 = true ∧
    (0xFC : Byte).getLsbD 1 = false := by decide

theorem witness_WrtxStoresOnePayloadByte :
    (3 : Index).toNat < freshState.cfg.maxData ∧ freshState.cfg.maxData ≤ (4 : Index).toNat := by decide

theorem witness_ChkAnswersThePayloadChecksum :
    freshState.txLen.toNat ≤ freshState.cfg.maxData ∧ freshState.txLen = 0 ∧
    { freshState with txLen := 4 }.txLen.toNat ≤ freshState.cfg.maxData ∧
    freshState.cfg.maxData < { freshState with txLen := 5 }.txLen.toNat := by decide

theorem witness_RdfReadsTheFrame :
    ((7 : Index).toNat < { freshState with fLen := 8 }.fLen.toNat ∧ (7 : Index).toNat < freshState.cfg.maxFrame) ∧
    { freshState with fLen := 8 }.fLen.toNat ≤ (8 : Index).toNat := by decide

theorem witness_EncBuildsTheFrame :
    (smallLoadedState.txLen.toNat = 1 ∧ 1 ≤ smallLoadedState.cfg.maxData) ∧
    ({ freshState with txLen := 4 }.txLen.toNat = 4 ∧ 4 ≤ freshState.cfg.maxData) ∧
    (freshState.txLen.toNat = 0 ∧ { freshState with txLen := 5 }.txLen.toNat = 5 ∧ freshState.cfg.maxData < 5) := by decide

/-- A state that meets the invariants with RXCNT and FLEN as large as they can be in WaitData. -/
theorem fullState_inv : Inv fullState where
  inData := by decide
  inTail := by decide
  inLength := by decide
  running := by decide
  count := by decide
  frameReady := by decide
  frameLength := by decide
  frame := by decide
  memory := by intro space; cases space <;> decide

theorem witness_AccessesStayInsideTheBuffers :
    Inv fullState ∧ fullState.rxState = .waitData ∧ fullState.rxCnt.toNat + 1 = fullState.cfg.maxData ∧
    fullState.fLen.toNat = fullState.cfg.maxFrame := ⟨fullState_inv, by decide⟩

theorem witness_MemWriteSetsOneEntry :
    (3 < freshState.cfg.size .rxBuf ∧ 7 < freshState.cfg.size .fBuf) ∧
    (freshState.cfg.size .txBuf ≤ 4 ∧ freshState.cfg.size .fBuf ≤ 8) := by decide

theorem witness_ChecksumIgnoresOrder : ([0x11, 0x22, 0x33] : List Byte).Perm [0x33, 0x22, 0x11] := by decide

theorem witness_ChecksumSeesOneChangedByte : (0x00 : Byte) ≠ 0xFF := by decide

theorem witness_StepKeepsTheInvariants : Inv endState ∧ ∃ t, step (endState.present 0x100003) = .next t := ⟨endState_inv, _, rfl⟩

theorem witness_ReachableStatesMeetTheInvariants :
    Reachable smallBuild { freshState with port := [.command 0x100002] } := .present _ _ .start

theorem witness_NoStepStops : Inv readyState := readyState_inv

theorem witness_EveryCommandAnswersOnce : ∃ t, exec (.pb 0x03) endState = .next t := ⟨_, rfl⟩

theorem witness_ErrorsArePrecise :
    (∃ t, exec .enc freshState = .next t ∧ t.resp = some ⟨.invalidParam, 0x00⟩) ∧
    (∃ t, exec .reservedB freshState = .next t ∧ t.resp = some ⟨.illegalCmd, 0x00⟩) ∧
    (∃ t, exec (.pb 0x04) endState = .next t ∧ t.resp = some ⟨.error, 0x01⟩) :=
  ⟨⟨_, rfl, rfl⟩, ⟨_, rfl, rfl⟩, ⟨_, rfl, rfl⟩⟩

theorem witness_ReceiverRegistersHaveTheirWriters :
    (∃ t, exec (.pb 0x02) dataState = .next t ∧ t.rxState ≠ dataState.rxState ∧ t.rxCnt ≠ dataState.rxCnt ∧
      t.rxCchk ≠ dataState.rxCchk) ∧
    (∃ t, exec (.pb 0x02) { dataState with rxBuf := [(1, 0x00)] } = .next t ∧
      t.byteAt .rxBuf 1 ≠ { dataState with rxBuf := [(1, 0x00)] }.byteAt .rxBuf 1) ∧
    (∃ t, exec (.pb 0x04) lengthState = .next t ∧ t.rxLen ≠ lengthState.rxLen) ∧
    (∃ t, exec (.pb 0x5A) checksumState = .next t ∧ t.rxRchk ≠ checksumState.rxRchk) ∧
    (∃ t, exec .init endState = .next t ∧ t.rxState ≠ endState.rxState) :=
  ⟨⟨_, rfl, by decide, by decide, by decide⟩, ⟨_, rfl, by decide⟩, ⟨_, rfl, by decide⟩, ⟨_, rfl, by decide⟩, ⟨_, rfl, by decide⟩⟩

theorem witness_FlagsHaveTheirWriters :
    (∃ t, exec (.pb 0x03) endState = .next t ∧ endState.sendAck = false ∧ t.sendAck = true ∧ endState.frameReady = false ∧
      t.frameReady = true) ∧
    (∃ t, exec (.clrf 0x03) readyState = .next t ∧ readyState.sendAck = true ∧ t.sendAck = false ∧
      readyState.frameReady = true ∧ t.frameReady = false) :=
  ⟨⟨_, rfl, rfl, rfl, rfl, rfl⟩, ⟨_, rfl, rfl, by decide, rfl, by decide⟩⟩

theorem witness_FramerRegistersHaveTheirWriters :
    (∃ t, exec (.setlen 3) freshState = .next t ∧ t.txLen ≠ freshState.txLen) ∧
    (∃ t, exec (.wrtx 0 0x00) smallLoadedState = .next t ∧ t.byteAt .txBuf 0 ≠ smallLoadedState.byteAt .txBuf 0) ∧
    (∃ t, exec .enc { smallLoadedState with fBuf := [(0, 0x00)] } = .next t ∧ t.fLen ≠ smallLoadedState.fLen ∧
      t.byteAt .fBuf 0 ≠ { smallLoadedState with fBuf := [(0, 0x00)] }.byteAt .fBuf 0) :=
  ⟨⟨_, rfl, by decide⟩, ⟨_, rfl, by decide⟩, ⟨_, rfl, by decide, by decide⟩⟩

/-- A run with a NOP and an ENC that is answered INVALID_PARAM. -/
theorem witness_FrameIsStableBetweenEncodes :
    ∃ u rs, runWords [0x000000, 0x800000] freshState = .next (rs, u) ∧
      (∀ p ∈ List.zip [0x000000, 0x800000] rs, decode p.1 = .ok .enc → p.2.result ≠ .ok) ∧
      ∃ v, exec (.rdf 0) freshState = .next v :=
  ⟨_, _, rfl, by decide, _, rfl⟩

theorem witness_CommandsOtherThanPbAreIdempotent :
    (∃ t, exec (.rdrx 3) readyState = .next t) ∧ (∃ t, exec (.wrtx 3 0x01) freshState = .next t) ∧
    (∀ b, Instr.wrtx 3 0x01 ≠ .pb b) :=
  ⟨⟨_, rfl⟩, ⟨_, rfl⟩, by simp⟩

theorem witness_OutcomeSignalsFollowPb :
    (∃ t, exec (.pb 0x03) endState = .next t ∧ endState.msgReadyO = false ∧ t.msgReadyO = true) ∧
    (∃ t, exec (.pb 0x04) endState = .next t ∧ endState.msgErrorO = false ∧ t.msgErrorO = true) ∧
    (∃ t, exec (.pb 0x04) readyState = .next t ∧ readyState.msgReadyO = true) ∧
    (∃ t, exec .init { readyState with rxState := .messageError } = .next t ∧
      { readyState with rxState := .messageError }.msgErrorO = true) :=
  ⟨⟨_, rfl, by decide, by decide⟩, ⟨_, rfl, by decide, by decide⟩, ⟨_, rfl, by decide⟩, ⟨_, rfl, by decide⟩⟩

theorem witness_TerminalMarkerIsConsumedAsWaitStart :
    (∃ t, exec (.pb 0x03) endState = .next t ∧ t.resp = some ⟨.success, 0x01⟩) ∧
    (∃ t, exec (.pb 0x02) endState = .next t ∧ t.resp = some ⟨.error, 0x01⟩) :=
  ⟨⟨_, rfl, rfl⟩, ⟨_, rfl, rfl⟩⟩

theorem witness_SuccessMeansAValidatedPayload :
    Inv endState ∧ ∃ t, exec (.pb 0x03) endState = .next t ∧ t.resp = some ⟨.success, 0x01⟩ := ⟨endState_inv, _, rfl, rfl⟩

theorem witness_ReadyFrameIsKept :
    Inv readyState ∧ ∃ t, exec (.pb 0x55) readyState = .next t ∧ readyState.frameReady = true ∧ t.frameReady = true :=
  ⟨readyState_inv, _, rfl, rfl, rfl⟩

theorem witness_PbDependsOnTheReceiverAlone :
    (SameReceiverRegisters fullState { fullState with txLen := 9, fLen := 0 } ∧ fullState.rxState = .waitData ∧
      SameBuf .rxBuf fullState { fullState with txLen := 9, fLen := 0 } ∧ ∃ t, exec (.pb 0x03) fullState = .next t) ∧
    (SameReceiverRegisters fullState { fullState with rxBuf := [] } ∧
      { fullState with rxBuf := [] }.byteAt .rxBuf 3 = fullState.byteAt .rxBuf 3) :=
  ⟨⟨⟨rfl, rfl, ⟨rfl, rfl, rfl, rfl⟩, ⟨rfl, rfl⟩⟩, rfl, fun _ => rfl, _, rfl⟩,
   ⟨rfl, rfl, ⟨rfl, rfl, rfl, rfl⟩, ⟨rfl, rfl⟩⟩, rfl⟩

theorem witness_FramerDependsOnTheFramerAlone :
    SameFramer smallLoadedState { smallLoadedState with rxState := .waitEnd } ∧ ∃ t, exec .enc smallLoadedState = .next t :=
  ⟨⟨rfl, fun _ => rfl, rfl, fun _ => rfl⟩, _, rfl⟩

theorem witness_FrameIsTakenToItsEnd :
    freshState.rxState.ready = true ∧ 1 ≤ ([0x02] : List Byte).length ∧
    ([0x02, 0x03, 0x02, 0x03] : List Byte).length ≤ freshState.cfg.maxData ∧
    (0x03 : Byte) = freshState.cfg.etx ∧ (0x02 : Byte) = checksum freshState.cfg.alg [0x02] ∧
    ¬ ((0x02 : Byte) = freshState.cfg.etx ∧ (0x02 : Byte) = checksum freshState.cfg.alg [0x02]) := by decide

theorem witness_EncodedFrameIsReceived :
    smallLoadedState.txLen.toNat = 1 ∧ 1 ≤ smallLoadedState.cfg.maxData ∧ (∃ t, exec .enc smallLoadedState = .next t) ∧
    SameLink smallLoadedState.cfg State.reset.cfg ∧ 1 ≤ State.reset.cfg.maxData ∧ State.reset.rxState.ready = true :=
  ⟨rfl, by decide, ⟨_, rfl⟩, ⟨rfl, rfl, rfl⟩, by decide, rfl⟩

theorem witness_OneCorruptedByteIsAnError :
    smallLoadedState.txLen.toNat = 1 ∧ 1 ≤ smallLoadedState.cfg.maxData ∧
    (∃ t, exec .enc smallLoadedState = .next t ∧ t.frame[2]? ≠ some 0x00 ∧ t.frame[3]? ≠ some 0x00) ∧
    SameLink smallLoadedState.cfg freshState.cfg ∧ 1 ≤ freshState.cfg.maxData ∧ freshState.rxState.ready = true :=
  ⟨rfl, by decide, ⟨_, rfl, by decide, by decide⟩, ⟨rfl, rfl, rfl⟩, by decide, rfl⟩

theorem witness_GarbageBeforeAFrameIsDiscarded :
    freshState.rxState.ready = true ∧ (∀ b ∈ ([0xAA, 0x55, 0x00, 0xFF] : List Byte), b ≠ freshState.cfg.stx) ∧
    1 ≤ ([0x5A] : List Byte).length ∧ ([0x11, 0x22, 0x33, 0x44] : List Byte).length ≤ freshState.cfg.maxData := by decide

theorem witness_ReceiverRecoversAfterAnyOutcome :
    ∃ t, exec (.pb 0x04) endState = .next t ∧ t.resp = some ⟨.error, 0x01⟩ ∧ 1 ≤ ([0x5A] : List Byte).length ∧
      ([0x5A] : List Byte).length ≤ t.cfg.maxData := ⟨_, rfl, rfl, by decide, by decide⟩

theorem witness_UnequalAlgorithmsGiveAChecksumError :
    freshState.rxState.ready = true ∧ freshState.cfg.stx = sumBuild.stx ∧ freshState.cfg.etx = sumBuild.etx ∧
    1 ≤ ([0x11, 0x22, 0x33] : List Byte).length ∧ ([0x11, 0x22, 0x33] : List Byte).length ≤ freshState.cfg.maxData ∧
    checksum sumBuild.alg [0x11, 0x22, 0x33] ≠ checksum freshState.cfg.alg [0x11, 0x22, 0x33] ∧
    checksum sumBuild.alg [0x5A] = checksum freshState.cfg.alg [0x5A] := by decide

end Sys2Proof.Tests
end

section
/-! What the run of one command word is, by what the word decodes to (R14, R80, R83). -/

namespace Sys2Proof.Machine

theorem runWord_of_decode_ok {w : CommandWord} {i : Instr} (h : decode w = .ok i) (s : State) : runWord w s = exec i s := by
  simp only [runWord, h]

/-- A rejected word runs as ILLEGAL, as the reserved rows do (R83, R172). -/
theorem runWord_of_decode_error {w : CommandWord} {e : DecodeReject} (h : decode w = .error e) (s : State) :
    runWord w s = illegalCommand s := by
  simp only [runWord, h, execIllegalWord]

theorem illegalCommand_answers (s : State) :
    ∃ t, illegalCommand s = .next t ∧ t.resp = some Response.illegal ∧ SameState s t :=
  ⟨_, illegalCommand_eq s, rfl, sameState_respond s _⟩

/-- Settles O4: a step on a command word is `runWord` at the rest of the port, whose two cases are those of `decode`. -/
theorem stepRunsTheDecodedCommand : Obligations.StepRunsTheDecodedCommand := by
  intro s w rest hport
  rw [step_command s w rest hport]
  constructor
  · intro i hi
    exact runWord_of_decode_ok hi _
  · intro e he
    rw [runWord_of_decode_error he]
    exact illegalCommand_answers _

end Sys2Proof.Machine
end

section
/-! The invariants of R41, kept by every effect of a command (`exec_effect`) and so by every step. -/

namespace Sys2Proof.Machine

/-! ### What a legal length and a cleared flag mean -/

theorem legalLength_eq_true (c : Config) (n : Nat) : legalLength c n = true ↔ 1 ≤ n ∧ n ≤ c.maxData := by
  simp [legalLength]

/-- CLRF sets no flag (R145). -/
theorem clearedFlag_eq_true (flag maskBit : Bool) : clearedFlag flag maskBit = true ↔ flag = true ∧ maskBit = false := by
  cases maskBit <;> simp [clearedFlag]

/-! ### The bytes of a frame, by position (R70) -/

theorem getElem?_wireFrame_data (c : Config) (p : List Byte) (k : Nat) (h : k < p.length) :
    (wireFrame c p)[2 + k]? = some p[k] := by
  simp [wireFrame, Nat.add_comm 2 k, List.getElem?_append_left h, List.getElem?_eq_getElem h]

theorem getElem?_wireFrame_chk (c : Config) (p : List Byte) :
    (wireFrame c p)[p.length + 2]? = some (checksum c.alg p) := by
  simp [wireFrame]

theorem getElem?_wireFrame_etx (c : Config) (p : List Byte) : (wireFrame c p)[p.length + 3]? = some c.etx := by
  simp [wireFrame]

theorem State.byteAt_writeBytes_of_getElem? (s : State) (sp : Space) (vs : List Byte) (k : Nat) (v : Byte)
    (h : vs[k]? = some v) : (s.writeBytes sp 0 vs).byteAt sp k = v := by
  obtain ⟨hk, rfl⟩ := List.getElem?_eq_some_iff.mp h
  simpa using s.byteAt_writeBytes_inside sp 0 k vs hk

/-- The data field of a frame written to FBUF reads back as the payload. -/
theorem State.bytes_writeBytes_wireFrame (s : State) (c : Config) (p : List Byte) :
    (s.writeBytes .fBuf 0 (wireFrame c p)).bytes .fBuf 2 p.length = p := by
  apply List.ext_getElem (by simp)
  intro k _ hk
  rw [State.getElem_bytes]
  exact s.byteAt_writeBytes_of_getElem? .fBuf _ _ _ (getElem?_wireFrame_data c p k hk)

/-! ### Canonical buffers stay canonical -/

theorem State.wf_buf_setBuf (s : State) (sp : Space) (m : Memory) (hm : Memory.wf (s.cfg.size sp) m)
    (h : ∀ sp', Memory.wf (s.cfg.size sp') (s.buf sp')) (sp' : Space) :
    Memory.wf (s.cfg.size sp') ((s.setBuf sp m).buf sp') := by
  by_cases hsp : sp' = sp
  · subst hsp
    rwa [State.buf_setBuf_self]
  · rw [State.buf_setBuf_other _ _ _ _ hsp]
    exact h sp'

/-! ### The invariants at reset -/

/-- What reset leaves free, the reset count and the port, is no part of the invariants. -/
theorem inv_resetState (c : Config) (n : Nat) (inputs : List PortInput) :
    Inv { State.powerOn c with resets := n, port := inputs } where
  inData := nofun
  inTail := nofun
  inLength := nofun
  running := nofun
  count := Nat.zero_le _
  frameReady := nofun
  frameLength := .inl rfl
  frame := fun h => absurd rfl h
  memory := fun sp => by cases sp <;> exact Memory.wf_nil _

theorem inv_powerOn (c : Config) : Inv (State.powerOn c) := inv_resetState c 0 []

theorem inv_takeReset (s : State) : Inv s.takeReset := inv_resetState s.cfg _ _

/-- Settles O35: every register is at its reset value and nothing is written in any buffer. -/
theorem powerOnMeetsTheInvariants : Obligations.PowerOnMeetsTheInvariants :=
  ⟨inv_powerOn, inv_powerOn Config.standard⟩

/-! ### The invariants, kept by each kind of change -/

theorem Inv.withResp {s : State} (h : Inv s) (r : Option Response) : Inv { s with resp := r } := { h with }

theorem Inv.withPort {s : State} (h : Inv s) (inputs : List PortInput) : Inv { s with port := inputs } := { h with }

/-- Inside a frame FRAME_READY is 0 (R41 item 7). -/
theorem Inv.not_frameReady_of_inFrame {s : State} (h : Inv s) (hs : s.rxState.inFrame = true) : ¬ s.frameReady = true := by
  intro hf
  rcases (h.frameReady hf).1 with hr | hr <;> simp [hr, RxState.inFrame] at hs

/-- Falling back to WaitStart, from any state, keeps a validated frame valid (R132, R133). -/
theorem Inv.toWaitStart {s : State} (h : Inv s) (r : Option Response) :
    Inv { s with rxState := .waitStart, resp := r } :=
  { h with
    inData := nofun
    inTail := nofun
    inLength := nofun
    running := nofun
    frameReady := fun hf => ⟨.inl rfl, (h.frameReady hf).2⟩ }

theorem Inv.pbStx {s : State} (h : Inv s) (r : Option Response) :
    Inv { s with rxCnt := 0, rxCchk := 0x00, frameReady := false, rxState := .waitLength, resp := r } :=
  { h with
    inData := nofun
    inTail := nofun
    inLength := fun _ => ⟨rfl, rfl⟩
    running := fun _ => rfl
    count := Nat.zero_le _
    frameReady := nofun }

theorem Inv.pbLength {s : State} (h : Inv s) (b : Byte) (hs : s.rxState = .waitLength)
    (hb : legalLength s.cfg b.toNat = true) (r : Option Response) :
    Inv { s with rxLen := b, rxState := .waitData, resp := r } := by
  have hin : s.rxState.inFrame = true := by rw [hs]; rfl
  obtain ⟨hpos, hmax⟩ := (legalLength_eq_true _ _).mp hb
  have hcnt : s.rxCnt.toNat = 0 := by rw [(h.inLength hs).1]; rfl
  exact { h with
    inData := fun _ => ⟨hpos, hmax, hcnt.trans_lt hpos⟩
    inTail := nofun
    inLength := nofun
    running := fun _ => h.running hin
    frameReady := fun hf => absurd hf (h.not_frameReady_of_inFrame hin) }

/-- One more data byte: the count and the running checksum grow together with the written part of RXBUF (R134). -/
theorem Inv.pbData {s : State} (h : Inv s) (b : Byte) (hs : s.rxState = .waitData) (r : Option Response) :
    Inv { s.writeByte .rxBuf s.rxCnt.toNat b with
      rxCchk := chkFold s.cfg.alg s.rxCchk b
      rxCnt := BitVec.ofNat 8 (s.rxCnt.toNat + 1)
      rxState := if s.rxCnt.toNat + 1 = s.rxLen.toNat then .waitChecksum else .waitData
      resp := r } := by
  have hin : s.rxState.inFrame = true := by rw [hs]; rfl
  obtain ⟨hpos, hmax, hlt⟩ := h.inData hs
  have hcnt : (BitVec.ofNat 8 (s.rxCnt.toNat + 1)).toNat = s.rxCnt.toNat + 1 := by
    have := s.rxLen.isLt
    rw [BitVec.toNat_ofNat]
    omega
  have hchk : chkFold s.cfg.alg s.rxCchk b =
      checksum s.cfg.alg ((s.writeByte .rxBuf s.rxCnt.toNat b).bytes .rxBuf 0 (s.rxCnt.toNat + 1)) := by
    have hold : (s.writeByte .rxBuf s.rxCnt.toNat b).bytes .rxBuf 0 s.rxCnt.toNat = s.bytes .rxBuf 0 s.rxCnt.toNat :=
      State.bytes_congr _ _ _ _ _ fun k hk => State.byteAt_writeByte_other _ _ _ _ _ (by omega)
    rw [State.bytes_succ, hold, checksum_snoc, ← h.running hin, Nat.zero_add, State.byteAt_writeByte_self]
  exact { h with
    inData := fun hd => by
      have hne : s.rxCnt.toNat + 1 ≠ s.rxLen.toNat := fun he => by simp [he] at hd
      exact ⟨hpos, hmax, hcnt.trans_lt (Nat.lt_of_le_of_ne hlt hne)⟩
    inTail := fun ht => by
      have he : s.rxCnt.toNat + 1 = s.rxLen.toNat := by
        by_contra hne
        simp [hne] at ht
      exact ⟨hpos, hmax, BitVec.eq_of_toNat_eq (hcnt.trans he)⟩
    inLength := fun hl => by
      split at hl <;> cases hl
    running := fun _ => by
      simp only [hcnt]
      exact hchk
    count := hcnt.trans_le (Nat.le_trans hlt hmax)
    frameReady := fun hf => absurd hf (h.not_frameReady_of_inFrame hin)
    memory := s.wf_buf_setBuf .rxBuf _ (Memory.wf_write _ _ b _ (h.memory .rxBuf) (hlt.trans_le hmax)) h.memory }

theorem Inv.pbChecksum {s : State} (h : Inv s) (b : Byte) (hs : s.rxState = .waitChecksum) (r : Option Response) :
    Inv { s with rxRchk := b, rxState := .waitEnd, resp := r } := by
  have hin : s.rxState.inFrame = true := by rw [hs]; rfl
  exact { h with
    inData := nofun
    inTail := fun _ => h.inTail (.inl hs)
    inLength := nofun
    running := fun _ => h.running hin
    frameReady := fun hf => absurd hf (h.not_frameReady_of_inFrame hin) }

/-- SUCCESS turns the running checksum of the frame into the validity of FRAME_READY (R41 items 3 and 5 give item 7). -/
theorem Inv.pbSuccess {s : State} (h : Inv s) (hs : s.rxState = .waitEnd) (hc : s.rxRchk = s.rxCchk) (ack : Bool)
    (r : Option Response) :
    Inv { s with frameReady := true, sendAck := ack, rxState := .messageReady, resp := r } := by
  obtain ⟨hpos, hmax, hcnt⟩ := h.inTail (.inr hs)
  have hchk : s.rxCchk = checksum s.cfg.alg (s.bytes .rxBuf 0 s.rxLen.toNat) := by
    rw [← hcnt]
    exact h.running (by rw [hs]; rfl)
  exact { h with
    inData := nofun
    inTail := nofun
    inLength := nofun
    running := nofun
    frameReady := fun _ => ⟨.inr rfl, hpos, hmax, hcnt, hc, hchk⟩ }

theorem Inv.pbError {s : State} (h : Inv s) (hs : s.rxState = .waitEnd) (r : Option Response) :
    Inv { s with rxState := .messageError, resp := r } :=
  { h with
    inData := nofun
    inTail := nofun
    inLength := nofun
    running := nofun
    frameReady := fun hf => absurd hf (h.not_frameReady_of_inFrame (by rw [hs]; rfl)) }

theorem Inv.clrf {s : State} (h : Inv s) (m : Bool) (ack : Bool) (r : Option Response) :
    Inv { s with frameReady := clearedFlag s.frameReady m, sendAck := ack, resp := r } :=
  { h with frameReady := fun hf => h.frameReady ((clearedFlag_eq_true _ _).mp hf).1 }

theorem Inv.init {s : State} (h : Inv s) (r : Option Response) :
    Inv { s with
      rxState := .waitStart, rxLen := 0x00, rxCnt := 0x00, rxRchk := 0x00, rxCchk := 0x00, frameReady := false,
      sendAck := false, resp := r } :=
  { h with
    inData := nofun
    inTail := nofun
    inLength := nofun
    running := nofun
    count := Nat.zero_le _
    frameReady := nofun }

theorem Inv.wrtx {s : State} (h : Inv s) (i : Index) (b : Byte) (hi : i.toNat < s.cfg.maxData) (r : Option Response) :
    Inv { s.writeByte .txBuf i.toNat b with resp := r } :=
  { h with memory := s.wf_buf_setBuf .txBuf _ (Memory.wf_write _ _ b _ (h.memory .txBuf) hi) h.memory }

theorem Inv.setlen {s : State} (h : Inv s) (b : Byte) (r : Option Response) : Inv { s with txLen := b, resp := r } :=
  { h with }

/-- ENC leaves a whole frame in FBUF[0..FLEN) (R41 items 8 and 9). -/
theorem Inv.enc {s : State} (h : Inv s) (hl : legalLength s.cfg s.txLen.toNat = true) (r : Option Response) :
    Inv { s.writeBytes .fBuf 0 (wireFrame s.cfg s.payload) with
      fLen := BitVec.setWidth 9 s.txLen + 4, resp := r } := by
  obtain ⟨hpos, hmax⟩ := (legalLength_eq_true _ _).mp hl
  have hlen : (BitVec.setWidth 9 s.txLen + 4).toNat = s.payload.length + 4 := by
    rw [toNat_frameLength, State.length_payload]
  have hbyte := s.byteAt_writeBytes_of_getElem? .fBuf (wireFrame s.cfg s.payload)
  have hlenByte : (BitVec.ofNat 8 s.payload.length).toNat = s.payload.length := by
    rw [State.length_payload, BitVec.ofNat_toNat, BitVec.setWidth_eq]
  have hdata := s.bytes_writeBytes_wireFrame s.cfg s.payload
  exact { h with
    frameLength := .inr (by
      simp only [hlen, State.length_payload, State.writeBytes_cfg, Config.maxFrame]
      omega)
    frame := fun _ => by
      simp only [hlen]
      refine ⟨hbyte 0 _ rfl, hbyte _ _ (getElem?_wireFrame_etx ..), ?_, ?_⟩
      · exact (congrArg BitVec.toNat (hbyte 1 _ rfl)).trans hlenByte
      · exact (hbyte _ _ (getElem?_wireFrame_chk ..)).trans (congrArg _ hdata.symm)
    memory := s.wf_buf_setBuf .fBuf _
      (Memory.wf_writeAll _ 0 _ _ (h.memory .fBuf) (by simpa [Config.size, Config.maxFrame] using hmax)) h.memory }

/-- Every effect of a command keeps the invariants: one lemma above for each path that writes state. -/
theorem Effect.inv {i : Instr} {s t : State} (he : Effect i s t) (h : Inv s) : Inv t := by
  cases he with
  | pbStx => exact h.pbStx _
  | pbDiscard => exact h.toWaitStart _
  | pbLength b _ state legal => exact h.pbLength b state legal _
  | pbBadLength => exact h.toWaitStart _
  | pbData b _ state => exact h.pbData b state _
  | pbChecksum b _ state => exact h.pbChecksum b state _
  | pbSuccess _ _ state _ chk => exact h.pbSuccess state chk _ _
  | pbError _ _ state => exact h.pbError state _
  | clrf => exact h.clrf _ _ _
  | init => exact h.init _
  | wrtx i b _ inside => exact h.wrtx i b inside _
  | setlen b => exact h.setlen b _
  | enc _ legal => exact h.enc legal _
  | answer => exact h.withResp _

/-! ### The step: idle, reset or the effect of a command -/

/-- A rejected word runs as a reserved row does, so every word runs as some command (R83, R172). -/
theorem runWord_eq_exec (w : CommandWord) (s : State) : ∃ i, runWord w s = exec i s := by
  cases hd : decode w with
  | ok i => exact ⟨i, runWord_of_decode_ok hd s⟩
  | error e => exact ⟨.reservedB, runWord_of_decode_error hd s⟩

/-- Everything a step can do when it completes. -/
theorem step_cases {s t : State} (h : step s = .next t) :
    (s.port = [] ∧ t = s.idle) ∨
    (∃ rest, s.port = .rst :: rest ∧ t = { s with port := rest }.takeReset) ∨
    (∃ w rest i, s.port = .command w :: rest ∧ Effect i { s with port := rest } t) := by
  cases hp : s.port with
  | nil =>
    rw [step_idle s hp] at h
    cases h
    exact .inl ⟨rfl, rfl⟩
  | cons input rest =>
    cases input with
    | rst =>
      rw [step_rst s rest hp] at h
      cases h
      exact .inr (.inl ⟨rest, rfl, rfl⟩)
    | command w =>
      rw [step_command s w rest hp] at h
      obtain ⟨i, hi⟩ := runWord_eq_exec w { s with port := rest }
      exact .inr (.inr ⟨w, rest, i, rfl, exec_effect i _ t (hi ▸ h)⟩)

/-- Settles O36, by the three things a step can do; the work is `Effect.inv`. -/
theorem stepKeepsTheInvariants : Obligations.StepKeepsTheInvariants := by
  intro s t h hstep
  obtain ⟨-, rfl⟩ | ⟨rest, -, rfl⟩ | ⟨-, rest, i, -, he⟩ := step_cases hstep
  · exact h.withResp none
  · exact inv_takeReset _
  · exact he.inv (h.withPort rest)

/-! ### Reachable states -/

/-- No command changes a parameter (00_scope.md section 3), the reset count or the inputs waiting. -/
theorem Effect.sameSurroundings {i : Instr} {s t : State} (he : Effect i s t) : SameSurroundings s t := by
  cases he <;> exact ⟨rfl, rfl, rfl⟩

theorem step_cfg {s t : State} (h : step s = .next t) : t.cfg = s.cfg := by
  obtain ⟨-, rfl⟩ | ⟨rest, -, rfl⟩ | ⟨-, rest, i, -, he⟩ := step_cases h
  · rfl
  · rfl
  · exact he.sameSurroundings.cfg

/-- Settles O37, by induction on how the state is reached. -/
theorem reachableStatesMeetTheInvariants : Obligations.ReachableStatesMeetTheInvariants := by
  intro c s hr
  induction hr with
  | start => exact ⟨inv_powerOn c, rfl⟩
  | present s inputs _ ih => exact ⟨ih.1.withPort inputs, ih.2⟩
  | step s t _ hstep ih => exact ⟨stepKeepsTheInvariants s t ih.1 hstep, (step_cfg hstep).trans ih.2⟩

end Sys2Proof.Machine
end

section
/-! Which commands change the flags, the framer's registers and the receiver's outcome signals (R27 to R38, R210): each fact is one
case split on what the command did (`exec_effect`). -/

namespace Sys2Proof.Machine

/-! ### The flags (R27, R28) -/

theorem Effect.pb_success_of_sendAck_set {i : Instr} {s t : State} (he : Effect i s t) (hs : s.sendAck = false)
    (ht : t.sendAck = true) : ∃ b d, i = .pb b ∧ t.resp = some ⟨.success, d⟩ := by
  cases he with
  | pbSuccess b => exact ⟨b, s.rxLen, rfl, rfl⟩
  | clrf => simp [hs, clearedFlag_eq_true] at ht
  | _ => simp [hs] at ht

theorem Effect.clrf_or_init_of_sendAck_cleared {i : Instr} {s t : State} (he : Effect i s t) (hs : s.sendAck = true)
    (ht : t.sendAck = false) : (∃ m, i = .clrf m ∧ m.getLsbD 1 = true) ∨ i = .init := by
  cases he with
  | clrf m => exact .inl ⟨m, rfl, by simpa [hs, clearedFlag] using ht⟩
  | init => exact .inr rfl
  | _ => simp [hs] at ht

theorem Effect.pb_success_of_frameReady_set {i : Instr} {s t : State} (he : Effect i s t) (hs : s.frameReady = false)
    (ht : t.frameReady = true) : ∃ b d, i = .pb b ∧ t.resp = some ⟨.success, d⟩ := by
  cases he with
  | pbSuccess b => exact ⟨b, s.rxLen, rfl, rfl⟩
  | clrf => simp [hs, clearedFlag_eq_true] at ht
  | _ => simp [hs] at ht

theorem Effect.stx_or_clrf_or_init_of_frameReady_cleared {i : Instr} {s t : State} (he : Effect i s t)
    (hs : s.frameReady = true) (ht : t.frameReady = false) :
    (i = .pb s.cfg.stx ∧ s.rxState.ready = true) ∨ (∃ m, i = .clrf m ∧ m.getLsbD 0 = true) ∨ i = .init := by
  cases he with
  | pbStx b _ ready stx => exact .inl ⟨by rw [stx], ready⟩
  | clrf m => exact .inr (.inl ⟨m, rfl, by simpa [hs, clearedFlag] using ht⟩)
  | init => exact .inr (.inr rfl)
  | _ => simp [hs] at ht

/-- Settles O44: one lemma above for what sets and one for what clears each flag. -/
theorem flagsHaveTheirWriters : Obligations.FlagsHaveTheirWriters := by
  intro i s t h
  have he := exec_effect i s t h
  exact ⟨he.pb_success_of_sendAck_set, he.clrf_or_init_of_sendAck_cleared, he.pb_success_of_frameReady_set,
    he.stx_or_clrf_or_init_of_frameReady_cleared⟩

/-! ### The framer's registers and buffers (R31 to R34) -/

theorem Effect.setlen_of_txLen_changed {i : Instr} {s t : State} (he : Effect i s t) (hne : t.txLen ≠ s.txLen) :
    i = .setlen t.txLen := by
  cases he with
  | setlen => rfl
  | _ => exact absurd rfl hne

theorem Effect.wrtx_of_txBuf_changed {i : Instr} {s t : State} (he : Effect i s t) {a : Nat}
    (hne : t.byteAt .txBuf a ≠ s.byteAt .txBuf a) :
    ∃ k : Index, k.toNat = a ∧ a < s.cfg.maxData ∧ i = .wrtx k (t.byteAt .txBuf a) := by
  cases he with
  | wrtx k b _ inside =>
    have ha : a = k.toNat := by
      by_contra hak
      exact hne (s.byteAt_writeByte_other .txBuf _ _ b hak)
    subst ha
    exact ⟨k, rfl, inside, congrArg _ (s.byteAt_writeByte_self .txBuf _ b).symm⟩
  | _ => exact absurd rfl hne

theorem Effect.enc_of_fLen_changed {i : Instr} {s t : State} (he : Effect i s t) (hne : t.fLen ≠ s.fLen) :
    i = .enc ∧ (∃ d, t.resp = some ⟨.ok, d⟩) ∧ t.fLen.toNat = s.txLen.toNat + 4 := by
  cases he with
  | enc => exact ⟨rfl, ⟨_, rfl⟩, toNat_frameLength s.txLen⟩
  | _ => exact absurd rfl hne

/-- A changed byte of FBUF stands inside the frame just built, where FBUF reads as that frame (R110). -/
theorem Effect.enc_of_fBuf_changed {i : Instr} {s t : State} (he : Effect i s t) {a : Nat}
    (hne : t.byteAt .fBuf a ≠ s.byteAt .fBuf a) :
    i = .enc ∧ (∃ d, t.resp = some ⟨.ok, d⟩) ∧ a < t.fLen.toNat ∧
      (wireFrame s.cfg s.payload)[a]? = some (t.byteAt .fBuf a) := by
  cases he with
  | enc =>
    have ha : a < (wireFrame s.cfg s.payload).length := by
      by_contra hout
      exact hne (s.byteAt_writeBytes_outside .fBuf 0 a _ (by omega))
    have hget := List.getElem?_eq_getElem ha
    refine ⟨rfl, ⟨_, rfl⟩, ?_, hget.trans (congrArg some (s.byteAt_writeBytes_of_getElem? .fBuf _ a _ hget).symm)⟩
    rw [length_wireFrame, State.length_payload] at ha
    exact ha.trans_eq (toNat_frameLength s.txLen).symm
  | _ => exact absurd rfl hne

/-- Settles O45: one lemma above for each register and buffer. -/
theorem framerRegistersHaveTheirWriters : Obligations.FramerRegistersHaveTheirWriters := by
  intro i s t h
  have he := exec_effect i s t h
  exact ⟨he.setlen_of_txLen_changed, fun _ => he.wrtx_of_txBuf_changed, he.enc_of_fLen_changed,
    fun _ => he.enc_of_fBuf_changed⟩

/-! ### The outcome signals (R38) -/

theorem State.msgReadyO_eq_true (s : State) : s.msgReadyO = true ↔ s.rxState = .messageReady := by simp [State.msgReadyO]

theorem State.msgReadyO_eq_false (s : State) : s.msgReadyO = false ↔ s.rxState ≠ .messageReady := by simp [State.msgReadyO]

theorem State.msgErrorO_eq_true (s : State) : s.msgErrorO = true ↔ s.rxState = .messageError := by simp [State.msgErrorO]

theorem State.msgErrorO_eq_false (s : State) : s.msgErrorO = false ↔ s.rxState ≠ .messageError := by simp [State.msgErrorO]

theorem Effect.pb_success_of_messageReady_entered {i : Instr} {s t : State} (he : Effect i s t)
    (hs : s.rxState ≠ .messageReady) (ht : t.rxState = .messageReady) :
    ∃ b d, i = .pb b ∧ t.resp = some ⟨.success, d⟩ := by
  cases he with
  | pbSuccess b => exact ⟨b, s.rxLen, rfl, rfl⟩
  | pbData => split at ht <;> cases ht
  | _ => simp [hs] at ht

theorem Effect.pb_error_of_messageError_entered {i : Instr} {s t : State} (he : Effect i s t)
    (hs : s.rxState ≠ .messageError) (ht : t.rxState = .messageError) :
    ∃ b d, i = .pb b ∧ t.resp = some ⟨.error, d⟩ := by
  cases he with
  | pbError b => exact ⟨b, _, rfl, rfl⟩
  | pbData => split at ht <;> cases ht
  | _ => simp [hs] at ht

/-- Only PB and INIT write RXSTATE (R23). -/
theorem Effect.rxState_of_not_pb_or_init {i : Instr} {s t : State} (he : Effect i s t)
    (hi : ¬ ((∃ b, i = .pb b) ∨ i = .init)) : t.rxState = s.rxState := by
  cases he with
  | clrf | wrtx | setlen | enc | answer => rfl
  | _ => simp at hi

/-- From a ready state PB and INIT lead to WaitLength or WaitStart, so they consume a terminal marker (R131, R132, R146). -/
theorem Effect.rxState_of_ready {i : Instr} {s t : State} (he : Effect i s t) (hs : s.rxState.ready = true)
    (hi : (∃ b, i = .pb b) ∨ i = .init) : t.rxState = .waitLength ∨ t.rxState = .waitStart := by
  cases he with
  | pbStx => exact .inl rfl
  | pbDiscard | init => exact .inr rfl
  | pbLength _ _ state | pbBadLength _ _ state | pbData _ _ state | pbChecksum _ _ state | pbSuccess _ _ state
  | pbError _ _ state => simp [state, RxState.ready] at hs
  | clrf | wrtx | setlen | enc => simp at hi
  | answer _ _ _ only => simp [only.notPb, only.notInit] at hi

/-- A terminal marker stands until the next PB or INIT (R38, R131). -/
theorem Effect.terminal_left_iff {i : Instr} {s t : State} (he : Effect i s t) {r : RxState}
    (hr : r = .messageReady ∨ r = .messageError) (hs : s.rxState = r) :
    t.rxState ≠ r ↔ (∃ b, i = .pb b) ∨ i = .init := by
  constructor
  · intro hne
    by_contra hi
    exact hne ((he.rxState_of_not_pb_or_init hi).trans hs)
  · intro hi
    have hready : s.rxState.ready = true := by rcases hr with rfl | rfl <;> rw [hs] <;> rfl
    rcases he.rxState_of_ready hready hi with ht | ht <;> rcases hr with rfl | rfl <;> simp [ht]

theorem Effect.of_success {i : Instr} {s t : State} (he : Effect i s t) {d : Byte} (h : t.resp = some ⟨.success, d⟩) :
    t.rxState = .messageReady ∧ t.frameReady = true ∧ t.sendAck = true := by
  cases he with
  | pbSuccess => exact ⟨rfl, rfl, rfl⟩
  | answer _ _ r only =>
    cases h
    simpa using only.result
  | _ => simp at h

theorem Effect.of_error {i : Instr} {s t : State} (he : Effect i s t) {d : Byte} (h : t.resp = some ⟨.error, d⟩) :
    t.rxState = .messageError := by
  cases he with
  | pbError => rfl
  | answer _ _ r only =>
    cases h
    simpa using only.result
  | _ => simp at h

/-- Settles O48: the outputs are read off RXSTATE, and the lemmas above say when RXSTATE takes and leaves a terminal marker. -/
theorem outcomeSignalsFollowPb : Obligations.OutcomeSignalsFollowPb := by
  refine ⟨fun s => ⟨codeOfState_code _, rfl, rfl, s.msgReadyO_eq_true, s.msgErrorO_eq_true⟩, fun i s t h => ?_⟩
  have he := exec_effect i s t h
  simp only [State.msgReadyO_eq_true, State.msgReadyO_eq_false, State.msgErrorO_eq_true, State.msgErrorO_eq_false]
  exact ⟨he.pb_success_of_messageReady_entered, he.pb_error_of_messageError_entered, he.terminal_left_iff (.inl rfl),
    he.terminal_left_iff (.inr rfl), fun _ _ _ => he.of_success, fun _ _ _ => he.of_error⟩

/-! ### The frame that FRAME_READY stands for (R28, R240) -/

/-- FRAME_READY is 0 inside a frame, where a length or data byte writes RXLEN, RXCNT and RXBUF; STX_VAL and INIT, which
write RXCNT too, clear it. -/
theorem Effect.frame_kept_of_frameReady {i : Instr} {s t : State} (he : Effect i s t) (hinv : Inv s)
    (hs : s.frameReady = true) (ht : t.frameReady = true) :
    t.rxLen = s.rxLen ∧ t.rxCnt = s.rxCnt ∧ SameBuf .rxBuf s t := by
  cases he with
  | pbStx | init => cases ht
  | pbLength _ _ state | pbData _ _ state =>
    exact absurd hs (hinv.not_frameReady_of_inFrame (by rw [state]; rfl))
  | _ => exact ⟨rfl, rfl, fun _ => rfl⟩

/-- Settles O51. -/
theorem readyFrameIsKept : Obligations.ReadyFrameIsKept :=
  fun i s t hinv h => (exec_effect i s t h).frame_kept_of_frameReady hinv

end Sys2Proof.Machine
end

section
/-! The response of the step before is read by no command (R20, R85). -/

namespace Sys2Proof.Machine

/-- Giving a response replaces the one that stood. -/
theorem respond_withResp (r : Result) (d : Byte) (s : State) (o : Option Response) :
    respond r d { s with resp := o } = respond r d s := rfl

theorem pbWaitData_withResp (b : Byte) (s : State) (o : Option Response) :
    pbWaitData b { s with resp := o } = pbWaitData b s := by
  rcases Nat.lt_or_ge s.rxCnt.toNat s.cfg.maxData with hc | hc
  · rw [pbWaitData_inside b s hc, pbWaitData_inside b { s with resp := o } hc]
    rfl
  · rw [pbWaitData_outside b s hc, pbWaitData_outside b { s with resp := o } hc]

theorem execPb_withResp (b : Byte) (s : State) (o : Option Response) :
    execPb b { s with resp := o } = execPb b s := by
  simp only [execPb, pbWaitData_withResp]
  rfl

theorem execWrtx_withResp (k : Index) (b : Byte) (s : State) (o : Option Response) :
    execWrtx k b { s with resp := o } = execWrtx k b s := by
  rcases Nat.lt_or_ge k.toNat s.cfg.maxData with hk | hk
  · rw [execWrtx_inside k b s hk, execWrtx_inside k b { s with resp := o } hk]
    rfl
  · rw [execWrtx_outside k b s hk, execWrtx_outside k b { s with resp := o } hk]
    rfl

/-- Every command replaces the response and reads none: only the two that store a byte first need their paths written out. -/
theorem exec_withResp (i : Instr) (s : State) (o : Option Response) : exec i { s with resp := o } = exec i s := by
  cases i with
  | pb b => exact execPb_withResp b s o
  | wrtx k b => exact execWrtx_withResp k b s o
  | _ => rfl

/-- Settles O41: a word is a command or is rejected, and neither reads the response. -/
theorem responseIsNeverRead : Obligations.ResponseIsNeverRead := by
  intro s w r
  cases hd : decode w with
  | ok i =>
    rw [runWord_of_decode_ok hd, runWord_of_decode_ok hd]
    exact exec_withResp i s r
  | error e =>
    rw [runWord_of_decode_error hd, runWord_of_decode_error hd]
    exact respond_withResp .illegalCmd 0x00 s r

end Sys2Proof.Machine
end

section
/-! The buffers (R50, R51, R55): a write sets one entry, the accesses of PB and RDF stay inside, and every command but PB may be
repeated without effect. -/

namespace Sys2Proof.Machine

/-! ### One access (R51) -/

theorem memRead_inside (sp : Space) (i : Nat) (s : State) (h : i < s.cfg.size sp) :
    memRead sp i s = .ok (s.byteAt sp i) := if_pos h

theorem memRead_outside (sp : Space) (i : Nat) (s : State) (h : s.cfg.size sp ≤ i) :
    memRead sp i s = .error (.noSuchEntry sp i) := if_neg (Nat.not_lt.mpr h)

theorem memWrite_inside (sp : Space) (i : Nat) (v : Byte) (s : State) (h : i < s.cfg.size sp) :
    memWrite sp i v s = .ok (s.writeByte sp i v) := if_pos h

theorem memWrite_outside (sp : Space) (i : Nat) (v : Byte) (s : State) (h : s.cfg.size sp ≤ i) :
    memWrite sp i v s = .error (.noSuchEntry sp i) := if_neg (Nat.not_lt.mpr h)

/-- "No other entry" is an entry of another space or at another index. -/
theorem State.byteAt_writeByte_elsewhere (s : State) (sp sp' : Space) (i j : Nat) (v : Byte) (h : sp' ≠ sp ∨ j ≠ i) :
    (s.writeByte sp i v).byteAt sp' j = s.byteAt sp' j := by
  rcases eq_or_ne sp' sp with rfl | hsp
  · exact s.byteAt_writeByte_other sp' i j v (h.resolve_left fun hne => hne rfl)
  · exact s.byteAt_writeByte_space sp sp' i j v hsp

/-- Settles O30: inside, by the laws of a write to this entry and to any other; outside, both accesses fault. -/
theorem memWriteSetsOneEntry : Obligations.MemWriteSetsOneEntry := by
  intro s sp i v
  constructor
  · intro h
    have hread : memRead sp i (s.writeByte sp i v) = .ok v := by
      rw [memRead_inside sp i _ (by simpa using h), State.byteAt_writeByte_self]
    exact ⟨memRead_inside sp i s h, _, memWrite_inside sp i v s h, hread,
      fun sp' j => s.byteAt_writeByte_elsewhere sp sp' i j v⟩
  · intro h
    exact ⟨memRead_outside sp i s h, memWrite_outside sp i v s h⟩

/-! ### The accesses of PB and RDF are inside (R41 items 2 and 8) -/

theorem Inv.rxCnt_lt_maxData {s : State} (h : Inv s) (hs : s.rxState = .waitData) : s.rxCnt.toNat < s.cfg.maxData := by
  obtain ⟨-, hmax, hlt⟩ := h.inData hs
  exact hlt.trans_le hmax

theorem Inv.fLen_le_maxFrame {s : State} (h : Inv s) : s.fLen.toNat ≤ s.cfg.maxFrame := by
  rcases h.frameLength with hzero | ⟨-, hmax⟩
  · simp [hzero]
  · exact hmax

/-- The write of WaitData is the one access of PB; every other row completes from every state. -/
theorem execPb_completes (b : Byte) (s : State) (h : s.rxState = .waitData → s.rxCnt.toNat < s.cfg.maxData) :
    ∃ t, execPb b s = .next t := by
  have ready (hr : s.rxState.ready = true) : ∃ t, execPb b s = .next t := by
    rw [execPb_ready b s hr, pbWaitStart]
    split <;> exact ⟨_, rfl⟩
  cases hs : s.rxState with
  | waitStart | messageReady | messageError => exact ready (by rw [hs]; rfl)
  | waitLength =>
    rw [execPb_waitLength b s hs, pbWaitLength]
    split <;> exact ⟨_, rfl⟩
  | waitData => exact ⟨_, (execPb_waitData b s hs).trans (pbWaitData_inside b s (h hs))⟩
  | waitChecksum => exact ⟨_, execPb_waitChecksum b s hs⟩
  | waitEnd =>
    rw [execPb_waitEnd b s hs, pbWaitEnd]
    split <;> exact ⟨_, rfl⟩

theorem execRdf_completes (i : Index) (s : State) (h : s.fLen.toNat ≤ s.cfg.maxFrame) : ∃ t, execRdf i s = .next t := by
  rcases Nat.lt_or_ge i.toNat s.fLen.toNat with hi | hi
  · exact ⟨_, (execRdf_built i s hi).trans (respondRead_inside .fBuf _ s (hi.trans_le h))⟩
  · exact ⟨_, execRdf_outside i s hi⟩

/-- Settles O29: a command that completes does not fault. -/
theorem accessesStayInsideTheBuffers : Obligations.AccessesStayInsideTheBuffers := by
  intro s h
  refine ⟨h.rxCnt_lt_maxData, h.fLen_le_maxFrame, fun b f hf => ?_, fun i f hf => ?_⟩
  · obtain ⟨t, ht⟩ := execPb_completes b s h.rxCnt_lt_maxData
    cases ht.symm.trans hf
  · obtain ⟨t, ht⟩ := execRdf_completes i s h.fLen_le_maxFrame
    cases ht.symm.trans hf

/-! ### Writing the same bytes again leaves the same contents -/

/-- The head of the list is before, at or after entry `i`; after one write it is never after it. -/
theorem Memory.write_write_self (i : Nat) (v : Byte) (m : Memory) :
    Memory.write i v (Memory.write i v m) = Memory.write i v m := by
  induction m with
  | nil => simp [Memory.write]
  | cons c m ih => grind [Memory.write]

/-- Writes at two entries commute: each keeps the order in which the other finds its place. -/
theorem Memory.write_comm (i j : Nat) (v w : Byte) (m : Memory) (h : i ≠ j) :
    Memory.write i v (Memory.write j w m) = Memory.write j w (Memory.write i v m) := by
  induction m with
  | nil => grind [Memory.write]
  | cons c m ih => grind [Memory.write]

theorem Memory.writeAll_write_comm (i j : Nat) (v : Byte) (vs : List Byte) (m : Memory) (h : j < i) :
    Memory.writeAll i vs (Memory.write j v m) = Memory.write j v (Memory.writeAll i vs m) := by
  induction vs generalizing i m with
  | nil => rfl
  | cons w vs ih =>
    simp only [Memory.writeAll]
    rw [Memory.write_comm _ _ _ _ _ h.ne', ih _ _ (by omega)]

theorem Memory.writeAll_writeAll_self (i : Nat) (vs : List Byte) (m : Memory) :
    Memory.writeAll i vs (Memory.writeAll i vs m) = Memory.writeAll i vs m := by
  induction vs generalizing i m with
  | nil => rfl
  | cons v vs ih =>
    simp only [Memory.writeAll]
    rw [← Memory.writeAll_write_comm _ _ _ _ _ i.lt_succ_self, Memory.write_write_self, ih]

/-! ### Repeating a command (R55) -/

theorem clearedFlag_clearedFlag (flag maskBit : Bool) :
    clearedFlag (clearedFlag flag maskBit) maskBit = clearedFlag flag maskBit := by
  cases maskBit <;> rfl

/-- NOP, the reads and CHK only answer. -/
theorem Effect.sameState_of_read {i : Instr} {s t : State} (he : Effect i s t)
    (hi : i = .nop ∨ (∃ k, i = .rdreg k) ∨ (∃ k, i = .rdrx k) ∨ (∃ k, i = .rdf k) ∨ i = .chk) : SameState s t := by
  cases he with
  | answer _ _ r => exact sameState_respond s (some r)
  | _ => simp at hi

theorem exec_clrf_again (m : Byte) {s t : State} (h : exec (.clrf m) s = .next t) : exec (.clrf m) t = .next t := by
  cases h
  simp [exec, execClrf, respond, clearedFlag_clearedFlag]

theorem State.writeByte_writeByte_self (s : State) (sp : Space) (i : Nat) (v : Byte) :
    (s.writeByte sp i v).writeByte sp i v = s.writeByte sp i v := by
  cases sp <;> simp [State.writeByte, State.setBuf, State.buf, Memory.write_write_self]

theorem execWrtx_again (k : Index) (b : Byte) (s : State) (inside : k.toNat < s.cfg.maxData) (r : Option Response) :
    execWrtx k b { s.writeByte .txBuf k.toNat b with resp := r } =
      .next { s.writeByte .txBuf k.toNat b with resp := some ⟨.ok, 0x00⟩ } := by
  rw [execWrtx_withResp, execWrtx_inside k b _ (by simpa using inside), State.writeByte_writeByte_self]

theorem execEnc_again (s : State) (legal : legalLength s.cfg s.txLen.toNat = true) (n : BitVec 9) (r : Option Response) :
    execEnc { s.writeBytes .fBuf 0 (wireFrame s.cfg s.payload) with fLen := n, resp := r } = execEnc s := by
  have hp : State.payload { s.writeBytes .fBuf 0 (wireFrame s.cfg s.payload) with fLen := n, resp := r } = s.payload := rfl
  rw [execEnc_legal s legal, execEnc_legal _ (by simpa using legal), hp]
  simp [State.writeBytes, State.setBuf, State.buf, Memory.writeAll_writeAll_self]

/-- The second run finds the flags cleared, the registers set and the bytes written as the first one left them, and TXBUF and TXLEN,
which ENC reads, unchanged. A command that only answered reads nothing that its answer changed (`exec_withResp`). -/
theorem exec_again {i : Instr} {s t : State} (hi : ∀ b, i ≠ .pb b) (h : exec i s = .next t) : exec i t = .next t := by
  have he := exec_effect i s t h
  cases he with
  | clrf m => exact exec_clrf_again m h
  | init | setlen => rfl
  | wrtx k b _ inside => exact execWrtx_again k b s inside _
  | enc _ legal => exact (execEnc_again s legal _ _).trans h
  | answer _ _ r => exact (exec_withResp i s (some r)).trans h
  | _ => exact absurd rfl (hi _)

/-- Settles O47: a read only answers, and the second run of a command other than PB leads to the state that the first one left. -/
theorem commandsOtherThanPbAreIdempotent : Obligations.CommandsOtherThanPbAreIdempotent :=
  ⟨fun i s t hi h => (exec_effect i s t h).sameState_of_read hi,
   fun _ _ t hi h => ⟨t, exec_again hi h, sameState_respond t t.resp, rfl⟩⟩

end Sys2Proof.Machine
end

section
/-! The decoder, the encoder and the opcode table (R81 to R83, R87). A word is its four fields, so a fact about a masked word is one
about masked fields; `decode_eq_ok_iff` then says of every command which words select it. -/

namespace Sys2Proof

/-! ### A word, field by field (R81) -/

theorem word_ext_iff {w w' : CommandWord} :
    w = w' ↔ opField w = opField w' ∧ rsvField w = rsvField w' ∧ idxField w = idxField w' ∧ byteField w = byteField w' := by
  constructor
  · rintro rfl
    exact ⟨rfl, rfl, rfl, rfl⟩
  · rintro ⟨hop, hrsv, hidx, hbyte⟩
    rw [← word_eq_fields w, hop, hrsv, hidx, hbyte, word_eq_fields]

@[simp] theorem opField_and (w m : CommandWord) : opField (w &&& m) = opField w &&& opField m := BitVec.extractLsb'_and
@[simp] theorem rsvField_and (w m : CommandWord) : rsvField (w &&& m) = rsvField w &&& rsvField m := BitVec.extractLsb'_and
@[simp] theorem idxField_and (w m : CommandWord) : idxField (w &&& m) = idxField w &&& idxField m := BitVec.extractLsb'_and
@[simp] theorem byteField_and (w m : CommandWord) : byteField (w &&& m) = byteField w &&& byteField m := BitVec.extractLsb'_and

/-! ### Masks: each takes the whole of a field or none of it -/

@[simp] theorem op_and_ones (x : BitVec 4) : x &&& 0xF#4 = x := BitVec.and_allOnes
@[simp] theorem rsv_and_ones (x : BitVec 3) : x &&& 0x7#3 = x := BitVec.and_allOnes
@[simp] theorem idx_and_ones (x : Index) : x &&& 0x1FF#9 = x := BitVec.and_allOnes
@[simp] theorem byte_and_ones (x : Byte) : x &&& 0xFF#8 = x := BitVec.and_allOnes

@[simp] theorem fields_mask_op : opField 0xF00000#24 = 0xF#4 ∧ rsvField 0xF00000#24 = 0#3 ∧
    idxField 0xF00000#24 = 0#9 ∧ byteField 0xF00000#24 = 0#8 := by decide

@[simp] theorem fields_mask_op_rsv : opField 0xFE0000#24 = 0xF#4 ∧ rsvField 0xFE0000#24 = 0x7#3 ∧
    idxField 0xFE0000#24 = 0#9 ∧ byteField 0xFE0000#24 = 0#8 := by decide

@[simp] theorem fields_mask_op_rsv_byte : opField 0xFE00FF#24 = 0xF#4 ∧ rsvField 0xFE00FF#24 = 0x7#3 ∧
    idxField 0xFE00FF#24 = 0#9 ∧ byteField 0xFE00FF#24 = 0xFF#8 := by decide

@[simp] theorem fields_mask_op_rsv_idx : opField 0xFFFF00#24 = 0xF#4 ∧ rsvField 0xFFFF00#24 = 0x7#3 ∧
    idxField 0xFFFF00#24 = 0x1FF#9 ∧ byteField 0xFFFF00#24 = 0#8 := by decide

@[simp] theorem fields_mask_all : opField 0xFFFFFF#24 = 0xF#4 ∧ rsvField 0xFFFFFF#24 = 0x7#3 ∧
    idxField 0xFFFFFF#24 = 0x1FF#9 ∧ byteField 0xFFFFFF#24 = 0xFF#8 := by decide

/-! ### The fields of a command's word and of its used bits -/

theorem encode_in_row : ∀ i : Instr, Laws.EncodeInRow.Statement i
  | .nop => Laws.EncodeInRow.nop
  | .pb b => Laws.EncodeInRow.pb b
  | .rdreg i => Laws.EncodeInRow.rdreg i
  | .rdrx i => Laws.EncodeInRow.rdrx i
  | .clrf m => Laws.EncodeInRow.clrf m
  | .init => Laws.EncodeInRow.init
  | .wrtx i b => Laws.EncodeInRow.wrtx i b
  | .setlen b => Laws.EncodeInRow.setlen b
  | .enc => Laws.EncodeInRow.enc
  | .rdf i => Laws.EncodeInRow.rdf i
  | .chk => Laws.EncodeInRow.chk
  | .reservedB => Laws.EncodeInRow.reservedB
  | .reservedC => Laws.EncodeInRow.reservedC
  | .reservedD => Laws.EncodeInRow.reservedD
  | .reservedE => Laws.EncodeInRow.reservedE
  | .reservedF => Laws.EncodeInRow.reservedF

@[simp] theorem rsvField_encode (i : Instr) : rsvField (encode i) = 0#3 := (encode_in_row i).1

@[simp] theorem opField_usedBits (i : Instr) : opField i.usedBits = 0xF#4 := by cases i <;> simp [Instr.usedBits]

/-- RSV selects the command below OP 0xB, and is ignored from there on (R83). -/
theorem rsvField_usedBits (i : Instr) :
    rsvField i.usedBits = if (opField (encode i)).toNat < 0xB then 0x7#3 else 0#3 := by
  cases i <;> simp [encode, Instr.usedBits]

theorem opField_encode_decodeOp (op : BitVec 4) (idx : Index) (byte : Byte) :
    opField (encode (decodeOp op idx byte)) = op := by
  have := op.isLt
  apply BitVec.eq_of_toNat_eq
  unfold decodeOp
  split <;> simp_all [encode]
  omega

/-- The command of an OP value takes over the operands that it uses. -/
theorem operands_encode_decodeOp (op : BitVec 4) (idx : Index) (byte : Byte) :
    idxField (encode (decodeOp op idx byte)) = idx &&& idxField (decodeOp op idx byte).usedBits ∧
    byteField (encode (decodeOp op idx byte)) = byte &&& byteField (decodeOp op idx byte).usedBits := by
  unfold decodeOp
  split <;> simp [encode, Instr.usedBits]

/-- The OP of a command and the operands that it uses determine it. -/
theorem decodeOp_opField_encode (i : Instr) (idx : Index) (byte : Byte)
    (hidx : idxField (encode i) = idx &&& idxField i.usedBits)
    (hbyte : byteField (encode i) = byte &&& byteField i.usedBits) : decodeOp (opField (encode i)) idx byte = i := by
  cases i <;> simp_all [encode, decodeOp, Instr.usedBits]

/-! ### The decoder (R83) -/

theorem decode_eq_error_iff {w : CommandWord} {e : DecodeReject} :
    decode w = .error e ↔
      ((opField w).toNat < 0xB ∧ rsvField w ≠ 0#3) ∧ DecodeReject.reservedField (opField w) (rsvField w) = e := by
  rw [decode]
  split <;> simp [*]

theorem decode_eq_ok_iff_decodeOp {w : CommandWord} {i : Instr} :
    decode w = .ok i ↔
      ((opField w).toNat < 0xB → rsvField w = 0#3) ∧ decodeOp (opField w) (idxField w) (byteField w) = i := by
  rw [decode]
  split <;> simp_all

/-- The words that select a command are those that agree with its encoding on the bits that it uses. -/
theorem decode_eq_ok_iff {w : CommandWord} {i : Instr} : decode w = .ok i ↔ encode i = w &&& i.usedBits := by
  rw [decode_eq_ok_iff_decodeOp, word_ext_iff]
  simp only [opField_and, rsvField_and, idxField_and, byteField_and, opField_usedBits, op_and_ones, rsvField_usedBits,
    rsvField_encode]
  constructor
  · rintro ⟨hrsv, rfl⟩
    obtain ⟨hidx, hbyte⟩ := operands_encode_decodeOp (opField w) (idxField w) (byteField w)
    refine ⟨opField_encode_decodeOp .., ?_, hidx, hbyte⟩
    rw [opField_encode_decodeOp]
    split <;> simp [*]
  · rintro ⟨hop, hrsv, hidx, hbyte⟩
    rw [← hop]
    refine ⟨fun hlt => ?_, decodeOp_opField_encode i _ _ hidx hbyte⟩
    rw [if_pos hlt, rsv_and_ones] at hrsv
    exact hrsv.symm

/-- The encoder writes 0 in every ignored bit (R87). -/
theorem encode_and_usedBits (i : Instr) : encode i &&& i.usedBits = encode i := by
  rw [word_ext_iff]
  cases i <;> simp [encode, Instr.usedBits]

/-- Settles O6: the encoding of a command agrees with itself on the bits that the command uses. -/
theorem decodeOfEncodeIsIdentity : Obligations.DecodeOfEncodeIsIdentity :=
  fun i => decode_eq_ok_iff.mpr (encode_and_usedBits i).symm

/-- Settles O7. -/
theorem encodeOfDecodeClearsIgnoredBits : Obligations.EncodeOfDecodeClearsIgnoredBits :=
  fun _ _ => decode_eq_ok_iff.mp

end Sys2Proof
end

section
/-! What a command word runs (R80, R83, R172), and the rows of the opcode table that select it (R82). -/

namespace Sys2Proof

/-! ### The parts of a word that select its command -/

theorem opField_encode_of_decode {w : CommandWord} {i : Instr} (h : decode w = .ok i) : opField (encode i) = opField w := by
  rw [decode_eq_ok_iff.mp h, opField_and, opField_usedBits, op_and_ones]

theorem byteField_encode_of_decode {w : CommandWord} {i : Instr} (h : decode w = .ok i)
    (hused : byteField i.usedBits = 0xFF#8) : byteField (encode i) = byteField w := by
  rw [decode_eq_ok_iff.mp h, byteField_and, hused, byte_and_ones]

theorem idxField_encode_of_decode {w : CommandWord} {i : Instr} (h : decode w = .ok i)
    (hused : idxField i.usedBits = 0x1FF#9) : idxField (encode i) = idxField w := by
  rw [decode_eq_ok_iff.mp h, idxField_and, hused, idx_and_ones]

/-- The ignored bits of a word do not change the command that it selects (R83). -/
theorem decode_of_agree_on_usedBits {w w' : CommandWord} {i : Instr} (h : decode w = .ok i)
    (hagree : w' &&& i.usedBits = w &&& i.usedBits) : decode w' = .ok i := by
  rw [decode_eq_ok_iff] at h ⊢
  exact h.trans hagree.symm

/-! ### The opcode table -/

theorem row_mem_opcodeTable (i : Instr) : i.row ∈ opcodeTable := by cases i <;> simp [opcodeTable, Instr.row]

/-- A row fixes the whole of OP and none of the operands, and RSV below OP 0xB. -/
theorem fields_of_mem_opcodeTable : ∀ r ∈ opcodeTable,
    (opField r.mask = 0xF#4 ∧ rsvField r.mask = (if (opField r.value).toNat < 0xB then 0x7#3 else 0#3) ∧
      idxField r.mask = 0#9 ∧ byteField r.mask = 0#8) ∧
    rsvField r.value = 0#3 ∧ idxField r.value = 0#9 ∧ byteField r.value = 0#8 := by decide

theorem eq_of_opField_value_eq : ∀ r ∈ opcodeTable, ∀ r' ∈ opcodeTable, opField r.value = opField r'.value → r = r' := by
  decide

theorem selects_iff {r : OpcodeRow} (hr : r ∈ opcodeTable) (w : CommandWord) :
    r.selects w = true ↔ opField w = opField r.value ∧ ((opField w).toNat < 0xB → rsvField w = 0#3) := by
  obtain ⟨⟨hop, hrsv, hidx, hbyte⟩, hrsv0, hidx0, hbyte0⟩ := fields_of_mem_opcodeTable r hr
  rw [OpcodeRow.selects, decide_eq_true_iff, word_ext_iff]
  simp only [opField_and, rsvField_and, idxField_and, byteField_and, hop, hrsv, hidx, hbyte, hrsv0, hidx0, hbyte0,
    op_and_ones, BitVec.and_zero, and_true]
  refine and_congr_right fun hw => ?_
  rw [hw]
  split <;> simp [*]

/-- Settles O9: a row selects the words of its OP (with RSV 000 below OP 0xB), as the decoder does, and no two rows have one OP. -/
theorem opcodeTableAgreesWithDecoder : Obligations.OpcodeTableAgreesWithDecoder := by
  refine ⟨fun w i h => ⟨row_mem_opcodeTable i, ?_⟩, fun w e h r hr => ?_, fun w r r' hr hr' hw hw' => ?_⟩
  · rw [selects_iff (row_mem_opcodeTable i), ← (encode_in_row i).2]
    exact ⟨(opField_encode_of_decode h).symm, (decode_eq_ok_iff_decodeOp.mp h).1⟩
  · obtain ⟨⟨hlt, hne⟩, -⟩ := decode_eq_error_iff.mp h
    rw [Bool.eq_false_iff, ne_eq, selects_iff hr]
    exact fun hsel => hne (hsel.2 hlt)
  · rw [selects_iff hr] at hw
    rw [selects_iff hr'] at hw'
    exact eq_of_opField_value_eq r hr r' hr' (hw.1.symm.trans hw'.1)

/-- Settles O10: each word is decoded as it stands. -/
theorem wordsOfTheSpecDecode : Obligations.WordsOfTheSpecDecode := by
  unfold Obligations.WordsOfTheSpecDecode
  decide

end Sys2Proof

namespace Sys2Proof.Machine

/-! ### The run of a word -/

theorem exec_decodeOp_of_reserved {op : BitVec 4} (h : 0xB ≤ op.toNat) (idx : Index) (byte : Byte) (s : State) :
    exec (decodeOp op idx byte) s = illegalCommand s := by
  unfold decodeOp
  split
  case h_12 | h_13 | h_14 | h_15 | h_16 => rfl
  all_goals omega

theorem runWord_of_reserved {w : CommandWord} (h : rsvField w ≠ 0#3 ∨ 0xB ≤ (opField w).toNat) (s : State) :
    runWord w s = illegalCommand s := by
  by_cases hop : 0xB ≤ (opField w).toNat
  · have hdec : decode w = .ok (decodeOp (opField w) (idxField w) (byteField w)) :=
      decode_eq_ok_iff_decodeOp.mpr ⟨fun hlt => absurd hlt (Nat.not_lt.mpr hop), rfl⟩
    rw [runWord_of_decode_ok hdec, exec_decodeOp_of_reserved hop]
  · have hdec : decode w = .error (.reservedField (opField w) (rsvField w)) :=
      decode_eq_error_iff.mpr ⟨⟨Nat.lt_of_not_le hop, h.resolve_right hop⟩, rfl⟩
    exact runWord_of_decode_error hdec s

/-- Settles O8: reserved words run as ILLEGAL, the others as the command of their OP with the operands that it uses. -/
theorem decodingFollowsOpAndRsv : Obligations.DecodingFollowsOpAndRsv := by
  refine ⟨fun w s h => runWord_of_reserved h s, fun w s hrsv hop => ?_, fun w w' i h => decode_of_agree_on_usedBits h⟩
  have hdec : decode w = .ok (decodeOp (opField w) (idxField w) (byteField w)) :=
    decode_eq_ok_iff_decodeOp.mpr ⟨fun _ => hrsv, rfl⟩
  refine ⟨_, hdec, runWord_of_decode_ok hdec s, (encode_in_row _).2.symm.trans (opField_encode_of_decode hdec), ?_⟩
  generalize decodeOp (opField w) (idxField w) (byteField w) = i at hdec
  have hidx := idxField_encode_of_decode hdec
  have hbyte := byteField_encode_of_decode hdec
  refine ⟨?_, ?_, ?_⟩
  · rintro b (rfl | rfl | rfl) <;> simpa [encode, Instr.usedBits] using hbyte
  · rintro k (rfl | rfl | rfl) <;> simpa [encode, Instr.usedBits] using hidx
  · rintro k b rfl
    simpa [encode, Instr.usedBits] using And.intro hidx hbyte

/-- The host's number of a word, presented at the port, is the word that the next step runs (log 2). -/
theorem step_withFetchWord (s : State) (w : CommandWord) : step (s.withFetchWord 24 w.toNat) = runWord w s := by
  have hw : tableWord 24 w.toNat = w := by
    rw [tableWord, Nat.mod_eq_of_lt w.isLt, BitVec.ofNat_toNat, BitVec.setWidth_eq]
  rw [State.withFetchWord, hw, step_present]

/-- Settles O5. -/
theorem placedWordRunsNext : Obligations.PlacedWordRunsNext := fun i s =>
  (step_withFetchWord s (encode i)).trans (runWord_of_decode_ok (decodeOfEncodeIsIdentity i) s)

end Sys2Proof.Machine
end

section
/-! The assembler (R87, R88): the word of each form, the expansion of each pseudo-instruction, and decoding of every line. -/

namespace Sys2Proof

theorem assemble_eq_expand_of_wf {a : AsmLine} (h : a.wf = true) : assemble a = some (a.expand.map encode) := if_pos h

theorem map_decode_map_encode (is : List Instr) : (is.map encode).map decode = is.map .ok := by
  rw [List.map_map]
  exact List.map_congr_left fun i _ => decodeOfEncodeIsIdentity i

theorem assembled_words_decode {a : AsmLine} (h : a.wf = true) :
    ∃ ws, assemble a = some ws ∧ ws.map decode = a.expand.map .ok :=
  ⟨_, assemble_eq_expand_of_wf h, map_decode_map_encode _⟩

/-! ### The words of R87's table -/

/-- A number that fits a field is the same number in the word. -/
theorem setWidth_ofNat_of_lt {n k : Nat} (hk : k < 2 ^ n) :
    (BitVec.ofNat n k).setWidth 24 = BitVec.ofNat 24 k := by
  apply BitVec.eq_of_toNat_eq
  simp [Nat.mod_eq_of_lt hk]

theorem commandWord_idx_byte (op : BitVec 4) {i b : Nat} (hi : i < 512) (hb : b < 256) :
    commandWord op (BitVec.ofNat 9 i) (BitVec.ofNat 8 b) =
      op.setWidth 24 <<< 20 ||| BitVec.ofNat 24 i <<< 8 ||| BitVec.ofNat 24 b := by
  rw [commandWord_eq_or, setWidth_ofNat_of_lt hi, setWidth_ofNat_of_lt hb]

theorem commandWord_byte (op : BitVec 4) {b : Nat} (hb : b < 256) :
    commandWord op 0#9 (BitVec.ofNat 8 b) = op.setWidth 24 <<< 20 ||| BitVec.ofNat 24 b := by
  simpa using commandWord_idx_byte op (i := 0) (by decide) hb

theorem commandWord_idx (op : BitVec 4) {i : Nat} (hi : i < 512) :
    commandWord op (BitVec.ofNat 9 i) 0#8 = op.setWidth 24 <<< 20 ||| BitVec.ofNat 24 i <<< 8 := by
  simpa using commandWord_idx_byte op (b := 0) hi (by decide)

theorem assemble_byte_forms {b : Nat} (hb : b < 256) :
    assemble (.pb b) = some [0x100000#24 ||| BitVec.ofNat 24 b] ∧
    assemble (.clrf b) = some [0x400000#24 ||| BitVec.ofNat 24 b] ∧
    assemble (.setlen b) = some [0x700000#24 ||| BitVec.ofNat 24 b] := by
  simp [assemble, AsmLine.wf, byteOk, hb, AsmLine.expand, encode, commandWord_byte _ hb]

theorem assemble_idx_forms {i : Nat} (hi : i < 512) :
    assemble (.rdreg (.index i)) = some [0x200000#24 ||| BitVec.ofNat 24 i <<< 8] ∧
    assemble (.rdrx i) = some [0x300000#24 ||| BitVec.ofNat 24 i <<< 8] ∧
    assemble (.rdf i) = some [0x900000#24 ||| BitVec.ofNat 24 i <<< 8] := by
  simp [assemble, AsmLine.wf, RegOperand.wf, indexOk, hi, AsmLine.expand, RegOperand.value, encode, commandWord_idx _ hi]

theorem assemble_wrtx {i b : Nat} (hi : i < 512) (hb : b < 256) :
    assemble (.wrtx i b) = some [0x600000#24 ||| BitVec.ofNat 24 i <<< 8 ||| BitVec.ofNat 24 b] := by
  simp [assemble, AsmLine.wf, indexOk, byteOk, hi, hb, AsmLine.expand, encode, commandWord_idx_byte _ hi hb]

/-! ### The expansions of R88's table -/

/-- `WRTX k, b0`, `WRTX k+1, b1`, ...: one line for each byte with its index. -/
theorem wrtxFrom_eq_flatMap (k : Nat) (bs : List Nat) :
    wrtxFrom k bs = (bs.zipIdx k).flatMap fun p => (AsmLine.wrtx p.2 p.1).expand := by
  induction bs generalizing k with
  | nil => rfl
  | cons b bs ih => simp [wrtxFrom, ih, AsmLine.expand]

/-- Settles O11: the forms by the fields of their words, the pseudo-instructions by their expansions, and the decoding of every line
by the decoding of each of its words. -/
theorem assembledLinesDecodeToTheirExpansion : Obligations.AssembledLinesDecodeToTheirExpansion := by
  refine ⟨by decide, fun _ => assemble_byte_forms, fun _ => assemble_idx_forms, fun _ _ => assemble_wrtx, by decide,
    fun _ => assembled_words_decode, by decide, fun bs => ?_, fun bs => ?_, fun _ => rfl, fun n => ?_⟩
  · exact List.map_eq_flatMap
  · exact congrArg (· ++ _) (wrtxFrom_eq_flatMap 0 bs)
  · exact List.map_eq_flatMap

end Sys2Proof
end

section
/-! The response of every command, and the commands that write each receiver register and RXBUF (R23 to R30, R78, R84, R85): each
fact is one case split on what the command did (`exec_effect`). -/

namespace Sys2Proof.Machine

/-! ### One response for each command (R84, R85) -/

theorem Effect.exists_resp {i : Instr} {s t : State} (he : Effect i s t) : ∃ r, t.resp = some r := by
  cases he <;> exact ⟨_, rfl⟩

/-- Settles O40. -/
theorem everyCommandAnswersOnce : Obligations.EveryCommandAnswersOnce := by
  refine ⟨fun i s t h => ?_, fun r => ⟨r.rdata_word, ?_⟩⟩
  · have he := exec_effect i s t h
    exact ⟨he.exists_resp, he.sameSurroundings⟩
  · rw [r.result_word]
    exact codeOfResult_code r.result

/-! ### The receiver's registers (R23 to R26, R29) -/

theorem legalLength_eq_false (c : Config) (b : Byte) :
    legalLength c b.toNat = false ↔ b = 0#8 ∨ c.maxData < b.toNat := by
  rw [← Bool.not_eq_true, legalLength_eq_true, ← BitVec.toNat_inj, BitVec.toNat_ofNat]
  omega

/-- The transitions of R78: state, byte and next state. -/
theorem Effect.transition_of_rxState_changed {i : Instr} {s t : State} (he : Effect i s t) (hne : t.rxState ≠ s.rxState) :
    (i = .init ∧ t.rxState = .waitStart) ∨ ∃ b, i = .pb b ∧
      ((s.rxState.ready = true ∧ b = s.cfg.stx ∧ t.rxState = .waitLength) ∨
       (s.rxState.ready = true ∧ b ≠ s.cfg.stx ∧ t.rxState = .waitStart) ∨
       (s.rxState = .waitLength ∧ 1 ≤ b.toNat ∧ b.toNat ≤ s.cfg.maxData ∧ t.rxState = .waitData) ∨
       (s.rxState = .waitLength ∧ (b = 0 ∨ s.cfg.maxData < b.toNat) ∧ t.rxState = .waitStart) ∨
       (s.rxState = .waitData ∧ s.rxCnt.toNat + 1 = s.rxLen.toNat ∧ t.rxState = .waitChecksum) ∨
       (s.rxState = .waitChecksum ∧ t.rxState = .waitEnd) ∨
       (s.rxState = .waitEnd ∧ b = s.cfg.etx ∧ s.rxRchk = s.rxCchk ∧ t.rxState = .messageReady) ∨
       (s.rxState = .waitEnd ∧ (b ≠ s.cfg.etx ∨ s.rxRchk ≠ s.rxCchk) ∧ t.rxState = .messageError)) := by
  cases he with
  | pbStx b _ ready stx => exact .inr ⟨b, rfl, by simp [ready, stx]⟩
  | pbDiscard b _ ready stx => exact .inr ⟨b, rfl, by simp [ready, stx]⟩
  | pbLength b _ state legal => exact .inr ⟨b, rfl, by simp [state, (legalLength_eq_true _ _).mp legal]⟩
  | pbBadLength b _ state legal => exact .inr ⟨b, rfl, by simp [state, (legalLength_eq_false _ _).mp legal]⟩
  | pbData b _ state =>
    have hlast : s.rxCnt.toNat + 1 = s.rxLen.toNat := by
      by_contra hmore
      simp [hmore, state] at hne
    exact .inr ⟨b, rfl, by simp [state, hlast]⟩
  | pbChecksum b _ state => exact .inr ⟨b, rfl, by simp [state]⟩
  | pbSuccess b _ state etx chk => exact .inr ⟨b, rfl, by simp [state, etx, chk]⟩
  | pbError b _ state bad => exact .inr ⟨b, rfl, by simp [state, bad]⟩
  | init => exact .inl ⟨rfl, rfl⟩
  | clrf | wrtx | setlen | enc | answer => exact absurd rfl hne

theorem Effect.pb_or_init_of_rxLen_changed {i : Instr} {s t : State} (he : Effect i s t) (hne : t.rxLen ≠ s.rxLen) :
    (s.rxState = .waitLength ∧ i = .pb t.rxLen) ∨ (i = .init ∧ t.rxLen = 0) := by
  cases he with
  | pbLength _ _ state => exact .inl ⟨state, rfl⟩
  | init => exact .inr ⟨rfl, rfl⟩
  | _ => exact absurd rfl hne

theorem Effect.pb_or_init_of_rxCnt_changed {i : Instr} {s t : State} (he : Effect i s t) (hne : t.rxCnt ≠ s.rxCnt) :
    (i = .pb s.cfg.stx ∧ s.rxState.ready = true ∧ t.rxCnt = 0) ∨
    (s.rxState = .waitData ∧ t.rxCnt = s.rxCnt + 1 ∧ ∃ b, i = .pb b) ∨ (i = .init ∧ t.rxCnt = 0) := by
  cases he with
  | pbStx b _ ready stx => exact .inl ⟨congrArg _ stx, ready, rfl⟩
  | pbData b _ state => exact .inr (.inl ⟨state, by simp [BitVec.ofNat_add], b, rfl⟩)
  | init => exact .inr (.inr ⟨rfl, rfl⟩)
  | _ => exact absurd rfl hne

theorem Effect.pb_or_init_of_rxRchk_changed {i : Instr} {s t : State} (he : Effect i s t) (hne : t.rxRchk ≠ s.rxRchk) :
    (s.rxState = .waitChecksum ∧ i = .pb t.rxRchk) ∨ (i = .init ∧ t.rxRchk = 0) := by
  cases he with
  | pbChecksum _ _ state => exact .inl ⟨state, rfl⟩
  | init => exact .inr ⟨rfl, rfl⟩
  | _ => exact absurd rfl hne

theorem Effect.pb_or_init_of_rxCchk_changed {i : Instr} {s t : State} (he : Effect i s t) (hne : t.rxCchk ≠ s.rxCchk) :
    (i = .pb s.cfg.stx ∧ s.rxState.ready = true ∧ t.rxCchk = 0) ∨
    (s.rxState = .waitData ∧ ∃ b, i = .pb b ∧ t.rxCchk = chkFold s.cfg.alg s.rxCchk b) ∨ (i = .init ∧ t.rxCchk = 0) := by
  cases he with
  | pbStx b _ ready stx => exact .inl ⟨congrArg _ stx, ready, rfl⟩
  | pbData b _ state => exact .inr (.inl ⟨state, b, rfl, rfl⟩)
  | init => exact .inr (.inr ⟨rfl, rfl⟩)
  | _ => exact absurd rfl hne

/-! ### RXBUF (R30) -/

theorem Effect.pb_of_rxBuf_changed {i : Instr} {s t : State} (he : Effect i s t) {a : Nat}
    (hne : t.byteAt .rxBuf a ≠ s.byteAt .rxBuf a) :
    s.rxState = .waitData ∧ a = s.rxCnt.toNat ∧ i = .pb (t.byteAt .rxBuf a) := by
  cases he with
  | pbData b _ state =>
    have ha : a = s.rxCnt.toNat := by
      by_contra hother
      exact hne (s.byteAt_writeByte_other .rxBuf _ _ b hother)
    subst ha
    exact ⟨state, rfl, congrArg _ (s.byteAt_writeByte_self .rxBuf _ b).symm⟩
  | _ => exact absurd rfl hne

/-- Settles O43: one lemma above for each register and for RXBUF. -/
theorem receiverRegistersHaveTheirWriters : Obligations.ReceiverRegistersHaveTheirWriters := by
  intro i s t h
  have he := exec_effect i s t h
  exact ⟨he.transition_of_rxState_changed, he.pb_or_init_of_rxLen_changed, he.pb_or_init_of_rxCnt_changed,
    he.pb_or_init_of_rxRchk_changed, he.pb_or_init_of_rxCchk_changed, fun _ => he.pb_of_rxBuf_changed⟩

end Sys2Proof.Machine
end

section
/-! The checksum unit (R100 to R103): the two folds written out, and what the checksum sees of a change to the bytes. -/

namespace Sys2Proof.Machine

/-- Settles O31: the fold step is exclusive-or, and one more byte is one more step. -/
theorem xorChecksumIsTheFold : Obligations.XorChecksumIsTheFold :=
  ⟨chkFold_xor, checksum_nil .xor, checksum_snoc .xor⟩

/-- Settles O32, by induction on the bytes from the last one back. -/
theorem sum8ChecksumIsTheSum : Obligations.Sum8ChecksumIsTheSum := by
  intro l
  induction l using List.reverseRecOn with
  | nil => rfl
  | append_singleton l b ih => simp [checksum_snoc, BitVec.toNat_add, ih]

/-- Two bytes may be folded in either order: exclusive-or and the sum are commutative and associative. -/
theorem chkFold_right_comm (alg : ChkAlg) (acc a b : Byte) :
    chkFold alg (chkFold alg acc a) b = chkFold alg (chkFold alg acc b) a := by
  cases alg with
  | xor => simp only [chkFold_xor, BitVec.xor_assoc, BitVec.xor_comm a b]
  | sum8 => simp only [chkFold_sum8, BitVec.add_assoc, BitVec.add_comm a b]

/-- Settles O33. -/
theorem checksumIgnoresOrder : Obligations.ChecksumIgnoresOrder :=
  fun alg _ _ hperm => hperm.foldl_eq' (fun a _ b _ acc => chkFold_right_comm alg acc a b) 0x00

/-- The changed byte gives another accumulator, and every byte after it keeps the accumulators apart. -/
theorem byte_eq_of_checksum_eq (alg : ChkAlg) (l r : List Byte) (b c : Byte)
    (h : checksum alg (l ++ b :: r) = checksum alg (l ++ c :: r)) : b = c := by
  induction r using List.reverseRecOn with
  | nil =>
    rw [checksum_snoc, checksum_snoc] at h
    exact chkFold_right_injective alg _ b c h
  | append_singleton r d ih =>
    simp only [← List.cons_append, ← List.append_assoc, checksum_snoc] at h
    exact ih (chkFold_left_injective alg _ _ d h)

/-- Settles O34. -/
theorem checksumSeesOneChangedByte : Obligations.ChecksumSeesOneChangedByte :=
  fun alg l r b c hne h => hne (byte_eq_of_checksum_eq alg l r b c h)

end Sys2Proof.Machine
end

section
/-! The framer's commands (R104 to R107, R110): what each answers, writes and leaves unchanged. -/

namespace Sys2Proof.Machine

theorem invalidParam_answers (s : State) :
    ∃ t, invalidParam s = .next t ∧ t.resp = some Response.invalid ∧ SameState s t :=
  ⟨_, invalidParam_eq s, rfl, sameState_respond s _⟩

/-- PB, CLRF and INIT alone write the receiver context (R20). -/
theorem Effect.sameReceiver {i : Instr} {s t : State} (he : Effect i s t) (hpb : ∀ b, i ≠ .pb b) (hclrf : ∀ m, i ≠ .clrf m)
    (hinit : i ≠ .init) : SameReceiver s t := by
  cases he with
  | wrtx | setlen | enc | answer => exact ⟨rfl, ⟨rfl, rfl, rfl, rfl⟩, ⟨rfl, rfl⟩, fun _ => rfl⟩
  | clrf m => exact absurd rfl (hclrf m)
  | init => exact absurd rfl hinit
  | _ => exact absurd rfl (hpb _)

/-! ### WRTX, SETLEN, CHK and RDF -/

/-- Settles O24. -/
theorem wrtxStoresOnePayloadByte : Obligations.WrtxStoresOnePayloadByte := by
  intro s i b
  refine ⟨opField_commandWord _ _ _, fun hi => ?_, fun hi => ?_⟩
  · have he := Effect.wrtx i b s hi
    refine ⟨_, execWrtx_inside i b s hi, rfl, s.byteAt_writeByte_self .txBuf i.toNat b, fun a ha => ?_, rfl, rfl, fun _ => rfl,
      he.sameReceiver nofun nofun nofun, he.sameSurroundings⟩
    exact s.byteAt_writeByte_other .txBuf i.toNat a b (by omega)
  · rw [exec, execWrtx_outside i b s hi]
    exact invalidParam_answers s

/-- Settles O25. -/
theorem setlenStoresTheLength : Obligations.SetlenStoresTheLength := by
  intro s b
  have he := Effect.setlen b s
  exact ⟨opField_commandWord _ _ _, _, rfl, rfl, rfl, fun _ => rfl, rfl, fun _ => rfl, he.sameReceiver nofun nofun nofun,
    he.sameSurroundings⟩

/-- Settles O26. -/
theorem chkAnswersThePayloadChecksum : Obligations.ChkAnswersThePayloadChecksum := by
  refine ⟨opField_commandWord _ _ _, fun s => ⟨fun hlen => ?_, fun hlen => ?_⟩⟩
  · refine ⟨_, execChk_legal s hlen, rfl, fun hzero => ?_, sameState_respond s _⟩
    simp [State.payload, hzero, Response.done]
  · rw [exec, execChk_illegal s hlen]
    exact invalidParam_answers s

/-- Settles O27. -/
theorem rdfReadsTheFrame : Obligations.RdfReadsTheFrame := by
  intro s i
  refine ⟨opField_commandWord _ _ _, fun hbuilt hsize => ?_, fun hout => ?_⟩
  · exact ⟨_, (execRdf_built i s hbuilt).trans (respondRead_inside .fBuf _ s hsize), rfl, sameState_respond s _⟩
  · rw [exec, execRdf_outside i s hout]
    exact invalidParam_answers s

/-! ### ENC (R110) -/

/-- The length field of the frame is TXLEN itself. -/
theorem ofNat_length_payload (s : State) : BitVec.ofNat 8 s.payload.length = s.txLen := by
  rw [State.length_payload, BitVec.ofNat_toNat, BitVec.setWidth_eq]

theorem State.getElem_payload (s : State) (k : Nat) (h : k < s.payload.length) : s.payload[k] = s.byteAt .txBuf k :=
  (s.getElem_bytes .txBuf 0 _ k h).trans (by rw [Nat.zero_add])

/-- Settles O28: FBUF reads as the wire frame of the payload, position by position, and above it as before. -/
theorem encBuildsTheFrame : Obligations.EncBuildsTheFrame := by
  refine ⟨opField_commandWord _ _ _, ?_⟩
  rintro s _ rfl
  constructor
  · intro hpos hmax
    have hlegal := (legalLength_eq_true _ _).mpr ⟨hpos, hmax⟩
    have he := Effect.enc s hlegal
    have hbyte := s.byteAt_writeBytes_of_getElem? .fBuf (wireFrame s.cfg s.payload)
    have hlen := hbyte 1 _ rfl
    have hdata (k : Nat) (hk : k < s.payload.length) := hbyte _ _ (getElem?_wireFrame_data s.cfg s.payload k hk)
    have hchk := hbyte _ _ (getElem?_wireFrame_chk s.cfg s.payload)
    have hetx := hbyte _ _ (getElem?_wireFrame_etx s.cfg s.payload)
    rw [ofNat_length_payload] at hlen
    simp only [State.getElem_payload] at hdata
    rw [State.length_payload] at hdata hchk hetx
    refine ⟨_, execEnc_legal s hlegal, rfl, hbyte 0 _ rfl, hlen, hdata, hchk, hetx, fun a ha => ?_, toNat_frameLength s.txLen, rfl,
      fun _ => rfl, he.sameReceiver nofun nofun nofun, he.sameSurroundings⟩
    exact s.byteAt_writeBytes_outside .fBuf 0 a _ (by rwa [length_wireFrame, State.length_payload])
  · intro hbad
    have hillegal : legalLength s.cfg s.txLen.toNat = false :=
      (legalLength_eq_false _ _).mpr (hbad.imp_left BitVec.eq_of_toNat_eq)
    rw [exec, execEnc_illegal s hillegal]
    exact invalidParam_answers s

end Sys2Proof.Machine
end

section
/-! The frame between two builds (R111, R241): what is not an ENC answered OK keeps FLEN and FBUF, and so what RDF reads. -/

namespace Sys2Proof.Machine

/-- All that RDF reads is unchanged: the build, FLEN and FBUF (R107). -/
structure SameFrame (s t : State) : Prop where
  cfg : t.cfg = s.cfg
  fLen : t.fLen = s.fLen
  fBuf : SameBuf .fBuf s t

theorem SameFrame.refl (s : State) : SameFrame s s := ⟨rfl, rfl, fun _ => rfl⟩

theorem SameFrame.trans {s t u : State} (h : SameFrame s t) (h' : SameFrame t u) : SameFrame s u :=
  ⟨h'.cfg.trans h.cfg, h'.fLen.trans h.fLen, fun a => (h'.fBuf a).trans (h.fBuf a)⟩

theorem SameFrame.frame {s t : State} (h : SameFrame s t) : t.frame = s.frame := by
  rw [State.frame, State.frame, h.fLen]
  exact State.bytes_congr s t .fBuf 0 _ fun k _ => h.fBuf (0 + k)

/-- Where RDF completes, its answer is the one of every state with the same frame. -/
theorem SameFrame.execRdf_answer {s u v : State} (h : SameFrame s u) {i : Index} (hv : execRdf i s = .next v) :
    ∃ r d, execRdf i s = respond r d s ∧ execRdf i u = respond r d u := by
  rcases Nat.lt_or_ge i.toNat s.fLen.toNat with hi | hi
  · have hi' : i.toNat < u.fLen.toNat := by rwa [h.fLen]
    rcases Nat.lt_or_ge i.toNat (s.cfg.size .fBuf) with hin | hout
    · have hin' : i.toNat < u.cfg.size .fBuf := by rwa [h.cfg]
      refine ⟨.ok, s.byteAt .fBuf i.toNat, (execRdf_built i s hi).trans (respondRead_inside _ _ s hin), ?_⟩
      rw [execRdf_built i u hi', respondRead_inside _ _ u hin', h.fBuf, respond]
    · rw [execRdf_built i s hi, respondRead_outside _ _ s hout] at hv
      cases hv
  · exact ⟨.invalidParam, 0x00, execRdf_outside i s hi, execRdf_outside i u (by rwa [h.fLen])⟩

/-! ### Commands and words -/

/-- FLEN and FBUF are written by an ENC answered OK alone (R33, R34). -/
theorem Effect.sameFrame {i : Instr} {s t : State} (he : Effect i s t)
    (h : i = .enc → ∀ r, t.resp = some r → r.result ≠ .ok) : SameFrame s t := by
  have hbuilt : ¬ (i = .enc ∧ ∃ d, t.resp = some ⟨.ok, d⟩) := fun ⟨hi, _, hd⟩ => h hi _ hd rfl
  refine ⟨he.sameSurroundings.cfg, ?_, fun a => ?_⟩
  · by_contra hne
    obtain ⟨hi, hok, -⟩ := he.enc_of_fLen_changed hne
    exact hbuilt ⟨hi, hok⟩
  · by_contra hne
    obtain ⟨hi, hok, -⟩ := he.enc_of_fBuf_changed hne
    exact hbuilt ⟨hi, hok⟩

/-- A word runs as the command it decodes to, and a rejected one as a reserved row (R83, R172). -/
theorem runWord_effect {w : CommandWord} {s t : State} (h : runWord w s = .next t) :
    ∃ i, (i = .enc → decode w = .ok .enc) ∧ Effect i s t := by
  cases hd : decode w with
  | ok i =>
    rw [runWord_of_decode_ok hd] at h
    exact ⟨i, congrArg _, exec_effect i s t h⟩
  | error e =>
    rw [runWord_of_decode_error hd] at h
    exact ⟨.reservedB, nofun, exec_effect .reservedB s t h⟩

/-! ### Runs -/

/-- A run that completes is its first word, with one response, and a run from the state that word leaves. -/
theorem runWords_cons_inv {w : CommandWord} {ws : List CommandWord} {s u : State} {rs : List Response}
    (h : runWords (w :: ws) s = .next (rs, u)) :
    ∃ t r rs', runWord w s = .next t ∧ t.resp = some r ∧ runWords ws t = .next (rs', u) ∧ rs = r :: rs' := by
  rw [runWords, step_present] at h
  cases hw : runWord w s with
  | fault | refused => simp [hw] at h
  | next t =>
    obtain ⟨i, -, he⟩ := runWord_effect hw
    obtain ⟨r, hr⟩ := he.exists_resp
    cases hrest : runWords ws t with
    | fault | refused => simp [hw, hrest] at h
    | next p =>
      obtain ⟨rs', u'⟩ := p
      simp only [hw, hrest, hr, Option.toList_some, List.singleton_append, Host.Outcome.next.injEq, Prod.mk.injEq] at h
      obtain ⟨rfl, rfl⟩ := h
      exact ⟨t, r, rs', rfl, hr, hrest, rfl⟩

theorem runWords_sameFrame {ws : List CommandWord} {s u : State} {rs : List Response}
    (h : runWords ws s = .next (rs, u)) (hno : ∀ p ∈ ws.zip rs, decode p.1 = .ok .enc → p.2.result ≠ .ok) :
    SameFrame s u := by
  induction ws generalizing s rs with
  | nil =>
    cases h
    exact .refl _
  | cons w ws ih =>
    obtain ⟨t, r, rs', hw, hr, hrest, rfl⟩ := runWords_cons_inv h
    rw [List.zip_cons_cons, List.forall_mem_cons] at hno
    obtain ⟨hfirst, hlater⟩ := hno
    obtain ⟨i, hi, he⟩ := runWord_effect hw
    have hframe : SameFrame s t := he.sameFrame fun henc r' hr' => by
      cases hr.symm.trans hr'
      exact hfirst (hi henc)
    exact hframe.trans (ih hrest hlater)

/-- Settles O46, by induction on the words of the run. -/
theorem frameIsStableBetweenEncodes : Obligations.FrameIsStableBetweenEncodes := by
  intro ws s u rs h hno
  have hframe := runWords_sameFrame h hno
  refine ⟨hframe.fLen, hframe.fBuf, hframe.frame, fun i v hv => ?_⟩
  obtain ⟨r, d, hs, hu⟩ := hframe.execRdf_answer hv
  cases hs.symm.trans hv
  exact ⟨_, hu, rfl⟩

end Sys2Proof.Machine
end

section
/-! The framer's commands read the framer and the build alone (R110, R218). -/

namespace Sys2Proof.Machine

/-! ### Equal framers stay equal -/

theorem SameBuf.writeByte {sp : Space} {s s' : State} (h : SameBuf sp s s') (i : Nat) (v : Byte) :
    SameBuf sp (s.writeByte sp i v) (s'.writeByte sp i v) := by
  intro a
  rcases eq_or_ne a i with rfl | ha
  · rw [State.byteAt_writeByte_self, State.byteAt_writeByte_self]
  · rw [State.byteAt_writeByte_other _ _ _ _ _ ha, State.byteAt_writeByte_other _ _ _ _ _ ha, h]

theorem SameBuf.writeBytes_zero {sp : Space} {s s' : State} (h : SameBuf sp s s') (vs : List Byte) :
    SameBuf sp (s.writeBytes sp 0 vs) (s'.writeBytes sp 0 vs) := by
  intro a
  rcases Nat.lt_or_ge a vs.length with ha | ha
  · have hget := List.getElem?_eq_getElem ha
    rw [State.byteAt_writeBytes_of_getElem? _ _ _ _ _ hget, State.byteAt_writeBytes_of_getElem? _ _ _ _ _ hget]
  · rw [State.byteAt_writeBytes_outside _ _ _ _ _ (by omega), State.byteAt_writeBytes_outside _ _ _ _ _ (by omega), h]

theorem SameFramer.payload {s s' : State} (h : SameFramer s s') : s'.payload = s.payload := by
  rw [State.payload, State.payload, h.txLen]
  exact State.bytes_congr s s' .txBuf 0 _ fun k _ => h.txBuf (0 + k)

/-! ### Equal answers -/

/-- Where the outcome `o` completes, `o'` completes with the same response and an equal framer. -/
def FramerAlike (o o' : Host.Outcome State Fault Refusal) : Prop :=
  ∀ t, o = .next t → ∃ t', o' = .next t' ∧ t'.resp = t.resp ∧ SameFramer t t'

theorem framerAlike_next {t t' : State} (h : SameFramer t t') (hresp : t'.resp = t.resp) :
    FramerAlike (.next t) (.next t') := by
  intro u hu
  cases hu
  exact ⟨t', rfl, hresp, h⟩

theorem framerAlike_respond {s s' : State} (h : SameFramer s s') (r : Result) (d : Byte) :
    FramerAlike (respond r d s) (respond r d s') :=
  framerAlike_next ⟨h.txLen, h.txBuf, h.fLen, h.fBuf⟩ rfl

theorem framerAlike_execSetlen {s s' : State} (h : SameFramer s s') (b : Byte) :
    FramerAlike (execSetlen b s) (execSetlen b s') :=
  framerAlike_next ⟨rfl, h.txBuf, h.fLen, h.fBuf⟩ rfl

section
variable {s s' : State} (hcfg : s'.cfg = s.cfg) (h : SameFramer s s')
include hcfg h

theorem framerAlike_execWrtx (k : Index) (b : Byte) : FramerAlike (execWrtx k b s) (execWrtx k b s') := by
  rcases Nat.lt_or_ge k.toNat s.cfg.maxData with hk | hk
  · rw [execWrtx_inside k b s hk, execWrtx_inside k b s' (by rwa [hcfg])]
    exact framerAlike_next ⟨h.txLen, h.txBuf.writeByte k.toNat b, h.fLen, h.fBuf⟩ rfl
  · rw [execWrtx_outside k b s hk, execWrtx_outside k b s' (by rwa [hcfg])]
    exact framerAlike_respond h .invalidParam 0x00

theorem framerAlike_execEnc : FramerAlike (execEnc s) (execEnc s') := by
  have hlegal' : legalLength s'.cfg s'.txLen.toNat = legalLength s.cfg s.txLen.toNat := by rw [hcfg, h.txLen]
  cases hlegal : legalLength s.cfg s.txLen.toNat with
  | true =>
    rw [execEnc_legal s hlegal, execEnc_legal s' (hlegal'.trans hlegal), hcfg, h.payload, h.txLen]
    exact framerAlike_next ⟨h.txLen, h.txBuf, rfl, h.fBuf.writeBytes_zero _⟩ rfl
  | false =>
    rw [execEnc_illegal s hlegal, execEnc_illegal s' (hlegal'.trans hlegal)]
    exact framerAlike_respond h .invalidParam 0x00

theorem framerAlike_execChk : FramerAlike (execChk s) (execChk s') := by
  rcases Nat.lt_or_ge s.cfg.maxData s.txLen.toNat with hlen | hlen
  · rw [execChk_illegal s hlen, execChk_illegal s' (by rwa [hcfg, h.txLen])]
    exact framerAlike_respond h .invalidParam 0x00
  · rw [execChk_legal s hlen, execChk_legal s' (by rwa [hcfg, h.txLen]), hcfg, h.payload]
    exact framerAlike_next ⟨h.txLen, h.txBuf, h.fLen, h.fBuf⟩ rfl

theorem framerAlike_execRdf (k : Index) : FramerAlike (execRdf k s) (execRdf k s') := by
  intro t ht
  obtain ⟨r, d, hs, hs'⟩ := SameFrame.execRdf_answer ⟨hcfg, h.fLen, h.fBuf⟩ ht
  rw [hs']
  exact framerAlike_respond h r d t (hs.symm.trans ht)

end

/-- Settles O53: one lemma above for each command. -/
theorem framerDependsOnTheFramerAlone : Obligations.FramerDependsOnTheFramerAlone := by
  intro i s s' t hi hcfg h
  rcases hi with ⟨k, b, rfl⟩ | ⟨b, rfl⟩ | rfl | ⟨k, rfl⟩ | rfl
  · exact framerAlike_execWrtx hcfg h k b t
  · exact framerAlike_execSetlen h b t
  · exact framerAlike_execEnc hcfg h t
  · exact framerAlike_execRdf hcfg h k t
  · exact framerAlike_execChk hcfg h t

end Sys2Proof.Machine
end

section
/-! PB row by row (R130 to R136), what an outcome of PB says and leaves (R131, R155), and the receiver's other
commands (R145 to R147). -/

namespace Sys2Proof.Machine

/-- WRTX, SETLEN and ENC alone write the framer context (R20). -/
theorem Effect.sameFramer {i : Instr} {s t : State} (he : Effect i s t) (hwrtx : ∀ k b, i ≠ .wrtx k b)
    (hsetlen : ∀ b, i ≠ .setlen b) (henc : i ≠ .enc) : SameFramer s t := by
  cases he with
  | wrtx k b => exact absurd rfl (hwrtx k b)
  | setlen b => exact absurd rfl (hsetlen b)
  | enc => exact absurd rfl henc
  | _ => exact ⟨rfl, fun _ => rfl, rfl, fun _ => rfl⟩

theorem Effect.sameFramer_of_pb {b : Byte} {s t : State} (he : Effect (.pb b) s t) : SameFramer s t :=
  he.sameFramer nofun nofun nofun

/-! ### The rows of the transition table -/

/-- Settles O14, by the equation of the row for each of the two kinds of byte. -/
theorem pbInReadyStateSeeksStx : Obligations.PbInReadyStateSeeksStx := by
  intro s b hs
  constructor
  · intro hb
    have he := Effect.pbStx b s hs hb
    exact ⟨_, (execPb_ready b s hs).trans (pbWaitStart_stx b s hb), rfl, rfl, rfl, rfl, rfl, rfl, rfl, rfl, fun _ => rfl,
      he.sameFramer_of_pb, he.sameSurroundings⟩
  · intro hb
    have he := Effect.pbDiscard b s hs hb
    exact ⟨_, (execPb_ready b s hs).trans (pbWaitStart_other b s hb), rfl, rfl, ⟨rfl, rfl, rfl, rfl⟩, ⟨rfl, rfl⟩, fun _ => rfl,
      he.sameFramer_of_pb, he.sameSurroundings⟩

/-- Settles O15, by the equation of the row for a legal and for an illegal length. -/
theorem pbInWaitLengthTakesTheLength : Obligations.PbInWaitLengthTakesTheLength := by
  intro s b hs
  constructor
  · intro hpos hmax
    have hlegal := (legalLength_eq_true _ _).mpr ⟨hpos, hmax⟩
    have he := Effect.pbLength b s hs hlegal
    exact ⟨_, (execPb_waitLength b s hs).trans (pbWaitLength_legal b s hlegal), rfl, rfl, rfl, rfl, rfl, rfl, ⟨rfl, rfl⟩,
      fun _ => rfl, he.sameFramer_of_pb, he.sameSurroundings⟩
  · intro hbad
    have hillegal := (legalLength_eq_false _ _).mpr hbad
    have he := Effect.pbBadLength b s hs hillegal
    exact ⟨_, (execPb_waitLength b s hs).trans (pbWaitLength_illegal b s hillegal), rfl, rfl, ⟨rfl, rfl, rfl, rfl⟩, ⟨rfl, rfl⟩,
      fun _ => rfl, he.sameFramer_of_pb, he.sameSurroundings⟩

/-- A length or count up to MAX_DATA fits a byte: MAX_DATA is at most 255 (R7). -/
theorem toNat_ofNat_of_le_maxData (c : Config) {n : Nat} (h : n ≤ c.maxData) : (BitVec.ofNat 8 n).toNat = n := by
  have := c.maxData_le
  rw [BitVec.toNat_ofNat]
  omega

/-- Settles O16: the access is inside RXBUF, and the count, at most MAX_DATA after it, does not wrap. -/
theorem pbInWaitDataStoresTheByte : Obligations.PbInWaitDataStoresTheByte := by
  intro s b hs hin
  have he := Effect.pbData b s hs hin
  refine ⟨_, (execPb_waitData b s hs).trans (pbWaitData_inside b s hin), rfl, s.byteAt_writeByte_self .rxBuf _ b,
    fun a ha => ?_, rfl, toNat_ofNat_of_le_maxData s.cfg hin, fun hlast => if_pos hlast, fun hmore => if_neg hmore, rfl, rfl, ⟨rfl, rfl⟩,
    he.sameFramer_of_pb, he.sameSurroundings⟩
  exact s.byteAt_writeByte_other .rxBuf _ a b (by omega)

/-- Settles O17, by the equation of the row. -/
theorem pbInWaitChecksumStoresTheChecksum : Obligations.PbInWaitChecksumStoresTheChecksum := by
  intro s b hs
  have he := Effect.pbChecksum b s hs
  exact ⟨_, execPb_waitChecksum b s hs, rfl, rfl, rfl, rfl, rfl, rfl, ⟨rfl, rfl⟩, fun _ => rfl, he.sameFramer_of_pb,
    he.sameSurroundings⟩

/-- Settles O18: the frame passes when both checks do; of the three ways to fail, each has its own cause. -/
theorem pbInWaitEndDecidesTheFrame : Obligations.PbInWaitEndDecidesTheFrame := by
  intro s b hs
  by_cases hpass : b = s.cfg.etx ∧ s.rxRchk = s.rxCchk
  · obtain ⟨hb, hc⟩ := hpass
    have he := Effect.pbSuccess b s hs hb hc
    refine ⟨_, (execPb_waitEnd b s hs).trans (pbWaitEnd_success b s hb hc), ⟨rfl, rfl, rfl, rfl⟩, fun _ => rfl,
      he.sameFramer_of_pb, he.sameSurroundings, fun _ _ => ⟨rfl, rfl, rfl, rfl⟩, ?_, ?_, ?_⟩ <;> simp [hb, hc]
  · have hbad : b ≠ s.cfg.etx ∨ s.rxRchk ≠ s.rxCchk := not_and_or.mp hpass
    have he := Effect.pbError b s hs hbad
    refine ⟨_, (execPb_waitEnd b s hs).trans (pbWaitEnd_error b s hbad), ⟨rfl, rfl, rfl, rfl⟩, fun _ => rfl,
      he.sameFramer_of_pb, he.sameSurroundings, fun hb hc => absurd ⟨hb, hc⟩ hpass, fun hb hc => ⟨?_, rfl, rfl, rfl⟩,
      fun hb hc => ⟨?_, rfl, rfl, rfl⟩, fun hb hc => ⟨?_, rfl, rfl, rfl⟩⟩ <;> simp [hb, hc] <;> decide

/-! ### The outcomes of PB (R130, R131, R155) -/

theorem Effect.result_of_pb {b : Byte} {s t : State} (he : Effect (.pb b) s t) :
    ∃ r, t.resp = some r ∧ (r.result = .waiting ∨ r.result = .success ∨ r.result = .error) := by
  cases he with
  | pbSuccess => exact ⟨_, rfl, .inr (.inl rfl)⟩
  | pbError => exact ⟨_, rfl, .inr (.inr rfl)⟩
  | answer _ _ _ only => exact absurd rfl (only.notPb b)
  | _ => exact ⟨_, rfl, .inl rfl⟩

/-- Settles O19: PB completes where the access of WaitData is inside RXBUF, and the invariants put it there. -/
theorem pbIsTotal : Obligations.PbIsTotal := by
  intro s b hinv
  obtain ⟨t, ht⟩ := execPb_completes b s hinv.rxCnt_lt_maxData
  obtain ⟨r, hr⟩ := (execPb_effect b s t ht).result_of_pb
  exact ⟨t, r, ht, hr⟩

/-- An outcome stands in RXSTATE as its terminal marker (R131). -/
theorem Effect.terminal_of_outcome {i : Instr} {s t : State} (he : Effect i s t) {r : Response} (hr : t.resp = some r) :
    (r.result = .success → t.rxState = .messageReady) ∧ (r.result = .error → t.rxState = .messageError) := by
  obtain ⟨result, d⟩ := r
  constructor
  · rintro rfl
    exact (he.of_success hr).1
  · rintro rfl
    exact he.of_error hr

theorem Effect.ready_of_outcome {i : Instr} {s t : State} (he : Effect i s t) {r : Response} (hr : t.resp = some r)
    (h : r.result = .success ∨ r.result = .error) : t.rxState.ready = true := by
  obtain ⟨hsuccess, herror⟩ := he.terminal_of_outcome hr
  rcases h with h | h
  · rw [hsuccess h]; rfl
  · rw [herror h]; rfl

/-- In every ready state PB does the same: RXSTATE is written and not read (R131). -/
theorem exec_pb_ready_eq_waitStart (b : Byte) {s : State} (h : s.rxState.ready = true) :
    exec (.pb b) s = exec (.pb b) { s with rxState := .waitStart } := execPb_ready b s h

/-- Settles O49: a terminal marker is a ready state, whose two cases are those of O14. -/
theorem terminalMarkerIsConsumedAsWaitStart : Obligations.TerminalMarkerIsConsumedAsWaitStart := by
  intro s t b c r h hr hout
  have he := exec_effect _ s t h
  have hready := he.ready_of_outcome hr hout
  refine ⟨he.terminal_of_outcome hr, exec_pb_ready_eq_waitStart c hready, ?_⟩
  obtain ⟨hstx, hother⟩ := pbInReadyStateSeeksStx t c hready
  rw [he.sameSurroundings.cfg] at hstx hother
  by_cases hc : c = s.cfg.stx
  · obtain ⟨u, hu, hresp, hstate, -⟩ := hstx hc
    exact ⟨u, hu, hresp, fun _ => hstate, fun hne => absurd hc hne⟩
  · obtain ⟨u, hu, hresp, hstate, -⟩ := hother hc
    exact ⟨u, hu, hresp, fun heq => absurd heq hc, fun _ => hstate⟩

theorem Effect.pbSuccess_inv {b d : Byte} {s t : State} (he : Effect (.pb b) s t) (h : t.resp = some ⟨.success, d⟩) :
    s.rxState = .waitEnd ∧ b = s.cfg.etx ∧ d = t.rxLen := by
  cases he with
  | pbSuccess _ _ state etx =>
    cases h
    exact ⟨state, etx, rfl⟩
  | answer _ _ _ only => exact absurd rfl (only.notPb b)
  | _ => simp at h

/-- Settles O50: SUCCESS sets FRAME_READY, and with it set the invariants of the state after say that the frame is valid (R41 item 7). -/
theorem successMeansAValidatedPayload : Obligations.SuccessMeansAValidatedPayload := by
  intro s t b d hinv h hresp
  have he := exec_effect _ s t h
  obtain ⟨hstate, hetx, rfl⟩ := he.pbSuccess_inv hresp
  obtain ⟨hmarker, hready, -⟩ := he.of_success hresp
  obtain ⟨-, hpos, hmax, -, hchk, hsum⟩ := (he.inv hinv).frameReady hready
  rw [he.sameSurroundings.cfg] at hmax hsum
  exact ⟨hstate, hetx, rfl, hpos, hmax, hchk.trans hsum, hready, t.msgReadyO_eq_true.mpr hmarker⟩

/-! ### RDRX, CLRF and INIT (R145 to R147) -/

/-- Settles O21, by the read inside RXBUF and the refusal outside. -/
theorem rdrxReadsTheReceiveBuffer : Obligations.RdrxReadsTheReceiveBuffer := by
  intro s i
  refine ⟨opField_commandWord _ _ _, fun hi => ?_, fun hi => ?_⟩
  · exact ⟨_, execRdrx_inside i s hi, rfl, sameState_respond s _⟩
  · rw [exec, execRdrx_outside i s hi]
    exact invalidParam_answers s

theorem clearedFlag_of_masked (flag : Bool) {maskBit : Bool} (h : maskBit = true) : clearedFlag flag maskBit = false := if_pos h

theorem clearedFlag_of_unmasked (flag : Bool) {maskBit : Bool} (h : maskBit = false) : clearedFlag flag maskBit = flag := by
  rw [h]; rfl

/-- Settles O22, flag by flag. -/
theorem clrfClearsTheMaskedFlags : Obligations.ClrfClearsTheMaskedFlags := by
  intro s m
  have he := Effect.clrf m s
  exact ⟨opField_commandWord _ _ _, _, rfl, rfl, clearedFlag_of_masked _, clearedFlag_of_unmasked _, clearedFlag_of_masked _,
    clearedFlag_of_unmasked _, rfl, ⟨rfl, rfl, rfl, rfl⟩, fun _ => rfl, he.sameFramer nofun nofun nofun, he.sameSurroundings⟩

/-- Settles O23, by the one path of INIT. -/
theorem initResetsTheReceiver : Obligations.InitResetsTheReceiver := by
  refine ⟨opField_commandWord _ _ _, fun s => ?_⟩
  have he := Effect.init s
  exact ⟨_, rfl, rfl, rfl, rfl, rfl, rfl, rfl, rfl, rfl, fun _ => rfl, he.sameFramer nofun nofun nofun, he.sameSurroundings⟩

end Sys2Proof.Machine
end

section
/-! PB reads the receiver and the build alone (R130, R218). -/

namespace Sys2Proof.Machine

/-- All of `o` but the receiver's registers, the flags, the build and the response, which are those of `s`. -/
def State.withReceiverRegisters (o s : State) : State :=
  { o with
    cfg := s.cfg, rxState := s.rxState, rxLen := s.rxLen, rxCnt := s.rxCnt, rxRchk := s.rxRchk, rxCchk := s.rxCchk
    frameReady := s.frameReady, sendAck := s.sendAck, resp := s.resp }

theorem sameReceiverRegisters_withReceiverRegisters (o s : State) : SameReceiverRegisters s (o.withReceiverRegisters s) :=
  ⟨rfl, rfl, ⟨rfl, rfl, rfl, rfl⟩, ⟨rfl, rfl⟩⟩

theorem SameReceiverRegisters.execPb_eq {s s' : State} (h : SameReceiverRegisters s s') (b : Byte) :
    execPb b s' = execPb b (s'.withReceiverRegisters s) := by
  obtain ⟨hcfg, hstate, ⟨hlen, hcnt, hrchk, hcchk⟩, ⟨hready, hack⟩⟩ := h
  rw [State.withReceiverRegisters, ← hcfg, ← hstate, ← hlen, ← hcnt, ← hrchk, ← hcchk, ← hready, ← hack]
  exact (execPb_withResp b s' s.resp).symm

/-- On every path PB checks the receiver's registers and the build, and writes from them; RXBUF of `o` goes along with that of `s`. -/
theorem Effect.pb_withReceiverRegisters {b : Byte} {s t : State} (he : Effect (.pb b) s t) (o : State) :
    ∃ o' : State, execPb b (o.withReceiverRegisters s) = .next (o'.withReceiverRegisters t) ∧
      (SameBuf .rxBuf s o → SameBuf .rxBuf t o') := by
  let s' := o.withReceiverRegisters s
  cases he with
  | pbStx _ _ ready stx => exact ⟨o, (execPb_ready b s' ready).trans (pbWaitStart_stx b s' stx), id⟩
  | pbDiscard _ _ ready stx => exact ⟨o, (execPb_ready b s' ready).trans (pbWaitStart_other b s' stx), id⟩
  | pbLength _ _ state legal => exact ⟨o, (execPb_waitLength b s' state).trans (pbWaitLength_legal b s' legal), id⟩
  | pbBadLength _ _ state legal => exact ⟨o, (execPb_waitLength b s' state).trans (pbWaitLength_illegal b s' legal), id⟩
  | pbData _ _ state inside =>
    exact ⟨o.writeByte .rxBuf s.rxCnt.toNat b, (execPb_waitData b s' state).trans (pbWaitData_inside b s' inside),
      fun hbuf => hbuf.writeByte _ b⟩
  | pbChecksum _ _ state => exact ⟨o, execPb_waitChecksum b s' state, id⟩
  | pbSuccess _ _ state etx chk => exact ⟨o, (execPb_waitEnd b s' state).trans (pbWaitEnd_success b s' etx chk), id⟩
  | pbError _ _ state bad => exact ⟨o, (execPb_waitEnd b s' state).trans (pbWaitEnd_error b s' bad), id⟩
  | answer _ _ _ only => exact absurd rfl (only.notPb b)

theorem byteAt_rxCnt_of_pb_waitData {s t : State} {b : Byte} (hs : s.rxState = .waitData) (h : exec (.pb b) s = .next t) :
    t.byteAt .rxBuf s.rxCnt.toNat = b := by
  rcases Nat.lt_or_ge s.rxCnt.toNat s.cfg.maxData with hin | hout
  · obtain ⟨u, hu, -, hbyte, -⟩ := pbInWaitDataStoresTheByte s b hs hin
    cases h.symm.trans hu
    exact hbyte
  · cases h.symm.trans ((execPb_waitData b s hs).trans (pbWaitData_outside b s hout))

/-- Settles O52: the second receiver has the registers of the first, and in WaitData both store the byte. -/
theorem pbDependsOnTheReceiverAlone : Obligations.PbDependsOnTheReceiverAlone := by
  intro s s' t b hregs h
  obtain ⟨o', ho', hbuf⟩ := (exec_effect _ s t h).pb_withReceiverRegisters s'
  have h' : exec (.pb b) s' = .next (o'.withReceiverRegisters t) := (hregs.execPb_eq b).trans ho'
  refine ⟨_, h', rfl, sameReceiverRegisters_withReceiverRegisters o' t, hbuf, fun hs => ?_⟩
  have hbyte' := byteAt_rxCnt_of_pb_waitData (hregs.rxState.trans hs) h'
  rw [hregs.counters.rxCnt] at hbyte'
  exact hbyte'.trans (byteAt_rxCnt_of_pb_waitData hs h).symm

end Sys2Proof.Machine
end

section
/-! Frames through the receiver (R137, R150 to R154): a frame is fed byte by byte, and each byte takes the row of PB for its place,
as O14 to O18 state the rows. -/

namespace Sys2Proof.Machine

/-! ### Feeding bytes -/

theorem runWords_cons_of_step {w : CommandWord} {ws : List CommandWord} {s t u : State} {r : Response} {rs : List Response}
    (hw : runWord w s = .next t) (hr : t.resp = some r) (hrest : runWords ws t = .next (rs, u)) :
    runWords (w :: ws) s = .next (r :: rs, u) := by
  simp only [runWords, step_present, hw, hrest, hr, Option.toList_some, List.singleton_append]

theorem runWords_append {ws ws' : List CommandWord} {s t u : State} {rs rs' : List Response}
    (h : runWords ws s = .next (rs, t)) (h' : runWords ws' t = .next (rs', u)) :
    runWords (ws ++ ws') s = .next (rs ++ rs', u) := by
  induction ws generalizing s rs with
  | nil =>
    cases h
    exact h'
  | cons w ws ih =>
    obtain ⟨v, r, rs₁, hw, hr, hrest, rfl⟩ := runWords_cons_inv h
    exact runWords_cons_of_step hw hr (ih hrest)

theorem feed_append {l l' : List Byte} {s t u : State} {rs rs' : List Response} (h : feed l s = .next (rs, t))
    (h' : feed l' t = .next (rs', u)) : feed (l ++ l') s = .next (rs ++ rs', u) := by
  rw [feed, List.map_append]
  exact runWords_append h h'

theorem feed_singleton {b : Byte} {s t : State} {r : Response} (h : exec (.pb b) s = .next t) (hr : t.resp = some r) :
    feed [b] s = .next ([r], t) :=
  runWords_cons_of_step ((runWord_of_decode_ok (decodeOfEncodeIsIdentity _) s).trans h) hr rfl

/-! ### Inside a frame (R154) -/

/-- In `t`, STX, the length `n` and the first bytes `data` of a frame have been taken from `s` on. -/
structure DataTaken (s t : State) (n : Nat) (data : List Byte) : Prop where
  cfg : t.cfg = s.cfg
  sendAck : t.sendAck = s.sendAck
  rxLen : t.rxLen.toNat = n
  rxState : t.rxState = if data.length = n then .waitChecksum else .waitData
  rxCnt : t.rxCnt.toNat = data.length
  rxCchk : t.rxCchk = checksum s.cfg.alg data
  bytes : t.bytes .rxBuf 0 data.length = data

/-- In `t`, all of a frame up to the received checksum `k` has been taken from `s` on. -/
structure FrameTaken (s t : State) (data : List Byte) (k : Byte) : Prop where
  cfg : t.cfg = s.cfg
  sendAck : t.sendAck = s.sendAck
  rxLen : t.rxLen = BitVec.ofNat 8 data.length
  rxState : t.rxState = .waitEnd
  rxRchk : t.rxRchk = k
  rxCchk : t.rxCchk = checksum s.cfg.alg data
  bytes : t.bytes .rxBuf 0 data.length = data

section
variable {s : State} {n : Nat} (hmax : n ≤ s.cfg.maxData)
include hmax

theorem feed_stx_length (hs : s.rxState.ready = true) (hpos : 1 ≤ n) :
    ∃ t, feed [s.cfg.stx, BitVec.ofNat 8 n] s = .next ([.waiting, .waiting], t) ∧ DataTaken s t n [] := by
  have hlen := toNat_ofNat_of_le_maxData s.cfg hmax
  obtain ⟨t, ht, hresp, hstate, hcnt, hcchk, -, hack, -, -, -, -, hsur⟩ := (pbInReadyStateSeeksStx s _ hs).1 rfl
  have hlegal := (pbInWaitLengthTakesTheLength t (BitVec.ofNat 8 n) hstate).1
  rw [hlen, hsur.cfg] at hlegal
  obtain ⟨u, hu, hresp', hstate', hlen', hcnt', -, hcchk', hflags, -, -, hsur'⟩ := hlegal hpos hmax
  refine ⟨u, feed_append (feed_singleton ht hresp) (feed_singleton hu hresp'), ?_⟩
  exact {
    cfg := hsur'.cfg.trans hsur.cfg
    sendAck := hflags.sendAck.trans hack
    rxLen := hlen' ▸ hlen
    rxState := hstate'.trans (if_neg (Nat.ne_of_lt hpos)).symm
    rxCnt := by rw [hcnt', hcnt]; rfl
    rxCchk := hcchk'.trans hcchk
    bytes := rfl }

/-- The next data byte, whatever its value, is taken as data (R134). -/
theorem DataTaken.pb {t : State} {data : List Byte} (h : DataTaken s t n data) (hmore : data.length < n) (b : Byte) :
    ∃ u, exec (.pb b) t = .next u ∧ u.resp = some .waiting ∧ DataTaken s u n (data ++ [b]) := by
  have hstate : t.rxState = .waitData := h.rxState.trans (if_neg hmore.ne)
  have hin : t.rxCnt.toNat < t.cfg.maxData := by rw [h.rxCnt, h.cfg]; exact hmore.trans_le hmax
  obtain ⟨u, hu, hresp, hbyte, hbuf, hcchk, hcnt, hlast, hnext, hlen, -, hflags, -, hsur⟩ :=
    pbInWaitDataStoresTheByte t b hstate hin
  rw [h.rxCnt] at hbyte hbuf hcnt hlast hnext
  rw [h.rxLen] at hlast hnext
  refine ⟨u, hu, hresp, ?_⟩
  exact {
    cfg := hsur.cfg.trans h.cfg
    sendAck := hflags.sendAck.trans h.sendAck
    rxLen := hlen ▸ h.rxLen
    rxState := by
      rw [List.length_append, List.length_singleton]
      split
      case isTrue he => exact hlast he
      case isFalse hne => exact hnext hne
    rxCnt := by rw [hcnt, List.length_append, List.length_singleton]
    rxCchk := by rw [hcchk, h.rxCchk, h.cfg, checksum_snoc]
    bytes := by
      have hold : u.bytes .rxBuf 0 data.length = data :=
        (State.bytes_congr _ _ _ _ _ fun k hk => hbuf (0 + k) (.inl (by omega))).trans h.bytes
      rw [List.length_append, List.length_singleton, State.bytes_succ, hold, Nat.zero_add, hbyte] }

/-- By induction on the data from its last byte back: no data byte is taken as anything else (R154). -/
theorem feed_data (hs : s.rxState.ready = true) (hpos : 1 ≤ n) (data : List Byte) (hlen : data.length ≤ n) :
    ∃ t, feed (s.cfg.stx :: BitVec.ofNat 8 n :: data) s = .next (List.replicate (data.length + 2) .waiting, t) ∧
      DataTaken s t n data := by
  induction data using List.reverseRecOn with
  | nil => exact feed_stx_length hmax hs hpos
  | append_singleton data b ih =>
    rw [List.length_append, List.length_singleton] at hlen
    obtain ⟨t, ht, htaken⟩ := ih (by omega)
    obtain ⟨u, hu, hresp, htaken'⟩ := htaken.pb hmax hlen b
    refine ⟨u, ?_, htaken'⟩
    rw [List.length_append, List.length_singleton, Nat.add_right_comm, List.replicate_succ']
    exact feed_append ht (feed_singleton hu hresp)

end

section
variable {s : State} {data : List Byte} (hs : s.rxState.ready = true) (hpos : 1 ≤ data.length)
  (hmax : data.length ≤ s.cfg.maxData)
include hs hpos hmax

theorem feed_through_checksum (k : Byte) :
    ∃ t, feed (s.cfg.stx :: BitVec.ofNat 8 data.length :: data ++ [k]) s =
        .next (List.replicate (data.length + 3) .waiting, t) ∧ FrameTaken s t data k := by
  obtain ⟨t, ht, htaken⟩ := feed_data hmax hs hpos data le_rfl
  obtain ⟨u, hu, hresp, hstate, hrchk, hlen, -, hcchk, hflags, hbuf, -, hsur⟩ :=
    pbInWaitChecksumStoresTheChecksum t k (htaken.rxState.trans (if_pos rfl))
  refine ⟨u, ?_, ?_⟩
  · rw [List.replicate_succ']
    exact feed_append ht (feed_singleton hu hresp)
  · exact {
      cfg := hsur.cfg.trans htaken.cfg
      sendAck := hflags.sendAck.trans htaken.sendAck
      rxLen := by
        apply BitVec.eq_of_toNat_eq
        rw [hlen, htaken.rxLen, toNat_ofNat_of_le_maxData s.cfg hmax]
      rxState := hstate
      rxRchk := hrchk
      rxCchk := hcchk.trans htaken.rxCchk
      bytes := (State.bytes_congr _ _ _ _ _ fun i _ => hbuf (0 + i)).trans htaken.bytes }

end

/-! ### The outcome of a frame (R154) -/

/-- `u` and the response `last` are what a frame with these data, checksum `k` and terminator `e` leaves of `s`. -/
structure FrameOutcome (s : State) (data : List Byte) (k e : Byte) (last : Response) (u : State) : Prop where
  bytes : u.bytes .rxBuf 0 data.length = data
  rxLen : u.rxLen.toNat = data.length
  success : e = s.cfg.etx → k = checksum s.cfg.alg data →
    last = ⟨.success, BitVec.ofNat 8 data.length⟩ ∧ u.rxState = .messageReady ∧ u.frameReady = true ∧ u.sendAck = true
  badChecksum : e = s.cfg.etx → k ≠ checksum s.cfg.alg data →
    last = ⟨.error, 0x02⟩ ∧ u.rxState = .messageError ∧ u.sendAck = s.sendAck
  badEtx : e ≠ s.cfg.etx → last.result = .error ∧ u.rxState = .messageError

/-- PB in WaitEnd decides the frame (R136). -/
theorem FrameTaken.outcome {s t : State} {data : List Byte} {k : Byte} (h : FrameTaken s t data k)
    (hmax : data.length ≤ s.cfg.maxData) (e : Byte) :
    ∃ u last, exec (.pb e) t = .next u ∧ u.resp = some last ∧ FrameOutcome s data k e last u := by
  obtain ⟨u, hu, hcounters, hbuf, -, -, hok, hetx, hchk, hboth⟩ := pbInWaitEndDecidesTheFrame t e h.rxState
  rw [h.cfg, h.rxRchk, h.rxCchk] at hok hetx hchk hboth
  rw [h.rxLen] at hok
  have hbytes : u.bytes .rxBuf 0 data.length = data :=
    (State.bytes_congr _ _ _ _ _ fun i _ => hbuf (0 + i)).trans h.bytes
  have hlen : u.rxLen.toNat = data.length := by rw [hcounters.rxLen, h.rxLen, toNat_ofNat_of_le_maxData s.cfg hmax]
  by_cases he : e = s.cfg.etx <;> by_cases hk : k = checksum s.cfg.alg data
  · obtain ⟨hresp, hrest⟩ := hok he hk
    exact ⟨u, _, hu, hresp, hbytes, hlen, fun _ _ => ⟨rfl, hrest⟩, fun _ hne => absurd hk hne, fun hne => absurd he hne⟩
  · obtain ⟨hresp, hstate, hflags⟩ := hchk he hk
    exact ⟨u, _, hu, hresp, hbytes, hlen, fun _ heq => absurd heq hk,
      fun _ _ => ⟨rfl, hstate, hflags.sendAck.trans h.sendAck⟩, fun hne => absurd he hne⟩
  · obtain ⟨hresp, hstate, -⟩ := hetx he hk
    exact ⟨u, _, hu, hresp, hbytes, hlen, fun heq => absurd heq he, fun heq => absurd heq he, fun _ => ⟨rfl, hstate⟩⟩
  · obtain ⟨hresp, hstate, -⟩ := hboth he hk
    exact ⟨u, _, hu, hresp, hbytes, hlen, fun heq => absurd heq he, fun heq => absurd heq he, fun _ => ⟨rfl, hstate⟩⟩

theorem feed_frame {s : State} {data : List Byte} (hs : s.rxState.ready = true) (hpos : 1 ≤ data.length)
    (hmax : data.length ≤ s.cfg.maxData) (k e : Byte) :
    ∃ u last, feed (s.cfg.stx :: BitVec.ofNat 8 data.length :: data ++ [k, e]) s =
        .next (List.replicate (data.length + 3) .waiting ++ [last], u) ∧ FrameOutcome s data k e last u := by
  obtain ⟨t, ht, htaken⟩ := feed_through_checksum hs hpos hmax k
  obtain ⟨u, last, hu, hresp, hout⟩ := htaken.outcome hmax e
  refine ⟨u, last, ?_, hout⟩
  simpa using feed_append ht (feed_singleton hu hresp)

/-- Settles O54: the outcome of a frame, with the two causes of ERROR taken together. -/
theorem frameIsTakenToItsEnd : Obligations.FrameIsTakenToItsEnd := by
  intro s data k e hs hpos hmax
  obtain ⟨u, last, hfeed, hout⟩ := feed_frame hs hpos hmax k e
  refine ⟨u, last, hfeed, hout.bytes, hout.rxLen, fun he hk => ?_, fun hbad => ?_⟩
  · obtain ⟨hlast, hstate, -⟩ := hout.success he hk
    exact ⟨hlast, hstate⟩
  · by_cases he : e = s.cfg.etx
    · obtain ⟨rfl, hstate, -⟩ := hout.badChecksum he fun hk => hbad ⟨he, hk⟩
      exact ⟨rfl, hstate⟩
    · exact hout.badEtx he

/-! ### Valid frames (R150, R152, R153) -/

/-- `u` is what R150 says a valid frame with payload `p` leaves. -/
structure Received (p : List Byte) (u : State) : Prop where
  bytes : u.bytes .rxBuf 0 p.length = p
  rxLen : u.rxLen.toNat = p.length
  frameReady : u.frameReady = true
  sendAck : u.sendAck = true
  rxState : u.rxState = .messageReady

theorem feed_wireFrame {s : State} {p : List Byte} (hs : s.rxState.ready = true) (hpos : 1 ≤ p.length)
    (hmax : p.length ≤ s.cfg.maxData) :
    ∃ u, feed (wireFrame s.cfg p) s =
        .next (List.replicate (p.length + 3) .waiting ++ [⟨.success, BitVec.ofNat 8 p.length⟩], u) ∧ Received p u := by
  obtain ⟨u, last, hfeed, hout⟩ := feed_frame hs hpos hmax (checksum s.cfg.alg p) s.cfg.etx
  obtain ⟨rfl, hstate, hready, hack⟩ := hout.success rfl rfl
  exact ⟨u, hfeed, hout.bytes, hout.rxLen, hready, hack, hstate⟩

/-- Settles O58: an outcome leaves a ready state. -/
theorem receiverRecoversAfterAnyOutcome : Obligations.ReceiverRecoversAfterAnyOutcome := by
  intro s t b r p h hr hout hpos hmax
  obtain ⟨u, hfeed, hrec⟩ := feed_wireFrame ((exec_effect _ s t h).ready_of_outcome hr hout) hpos hmax
  exact ⟨u, hfeed, hrec.bytes, hrec.frameReady, hrec.sendAck⟩

/-! ### Bytes before a frame (R152) -/

theorem feed_garbage {g : List Byte} {s : State} (hs : s.rxState.ready = true) (hg : ∀ b ∈ g, b ≠ s.cfg.stx) :
    ∃ u, feed g s = .next (List.replicate g.length .waiting, u) ∧ u.cfg = s.cfg ∧ u.rxState.ready = true ∧
      (g ≠ [] → u.rxState = .waitStart) := by
  induction g using List.reverseRecOn with
  | nil => exact ⟨s, rfl, rfl, hs, fun h => absurd rfl h⟩
  | append_singleton g b ih =>
    rw [List.forall_mem_append, List.forall_mem_singleton] at hg
    obtain ⟨t, ht, hcfg, hready, -⟩ := ih hg.1
    obtain ⟨u, hu, hresp, hstate, -, -, -, -, hsur⟩ := (pbInReadyStateSeeksStx t b hready).2 (hcfg ▸ hg.2)
    refine ⟨u, ?_, hsur.cfg.trans hcfg, by rw [hstate]; rfl, fun _ => hstate⟩
    rw [List.length_append, List.length_singleton, List.replicate_succ']
    exact feed_append ht (feed_singleton hu hresp)

/-- Settles O57: the garbage leaves a ready state, from which the frame is fed. -/
theorem garbageBeforeAFrameIsDiscarded : Obligations.GarbageBeforeAFrameIsDiscarded := by
  intro s g p hs hg
  obtain ⟨t, ht, hcfg, hready, hstate⟩ := feed_garbage hs hg
  refine ⟨⟨t, ht, hstate⟩, fun hpos hmax => ?_⟩
  obtain ⟨u, hu, hrec⟩ := feed_wireFrame hready hpos (hcfg ▸ hmax)
  rw [hcfg] at hu
  refine ⟨u, ?_, hrec.bytes, hrec.rxLen, hrec.frameReady, hrec.sendAck, hrec.rxState⟩
  rw [Nat.add_assoc, List.replicate_add, List.append_assoc]
  exact feed_append ht hu

/-! ### The frame that ENC builds, on a link (R150, R151, R235) -/

theorem frame_eq_wireFrame_of_enc {s t : State} (hlegal : legalLength s.cfg s.txLen.toNat = true)
    (h : exec .enc s = .next t) : t.frame = wireFrame s.cfg s.payload := by
  cases h.symm.trans (execEnc_legal s hlegal)
  apply List.ext_getElem
  · rw [State.frame, State.length_bytes, length_wireFrame, State.length_payload]
    exact toNat_frameLength s.txLen
  · intro k hk hk'
    refine (State.getElem_bytes _ .fBuf 0 _ k hk).trans ?_
    exact s.byteAt_writeBytes_inside .fBuf 0 k _ hk'

theorem SameLink.wireFrame_eq {c d : Config} (h : SameLink c d) (p : List Byte) : wireFrame c p = wireFrame d p := by
  rw [wireFrame, wireFrame, h.stx, h.etx, h.alg]

/-- FBUF reads as the wire frame of the payload, and both ends of a link have the same wire frame. -/
theorem frame_eq_wireFrame_of_link {tx tx' rx : State} (hpos : 1 ≤ tx.txLen.toNat) (hmax : tx.txLen.toNat ≤ tx.cfg.maxData)
    (henc : exec .enc tx = .next tx') (hlink : SameLink tx.cfg rx.cfg) : tx'.frame = wireFrame rx.cfg tx.payload :=
  (frame_eq_wireFrame_of_enc ((legalLength_eq_true _ _).mpr ⟨hpos, hmax⟩) henc).trans (hlink.wireFrame_eq _)

/-- Settles O55: what ENC builds is the receiver's own wire frame of the payload. -/
theorem encodedFrameIsReceived : Obligations.EncodedFrameIsReceived := by
  rintro tx tx' rx _ rfl hpos hmax henc hlink hmax' hs
  show _ ∧ ∃ u, _ ∧ _ = tx.payload ∧ _
  rw [frame_eq_wireFrame_of_link hpos hmax henc hlink]
  rw [← tx.length_payload] at hpos hmax' ⊢
  obtain ⟨u, hfeed, hrec⟩ := feed_wireFrame hs hpos hmax'
  exact ⟨length_wireFrame _ _, u, hfeed, hrec.bytes, hrec.rxLen, hrec.frameReady, hrec.sendAck, hrec.rxState⟩

/-! ### One corrupted byte (R151) -/

theorem checksum_set_ne (alg : ChkAlg) {p : List Byte} {i : Nat} (hi : i < p.length) {v : Byte} (hv : p[i] ≠ v) :
    checksum alg p ≠ checksum alg (p.set i v) := by
  have hset (w : Byte) : p.set i w = p.take i ++ w :: p.drop (i + 1) := by
    rw [List.set_eq_take_append_cons_drop, if_pos hi]
  intro heq
  rw [← List.set_getElem_self hi, List.set_set, hset, hset] at heq
  exact hv (byte_eq_of_checksum_eq alg _ _ _ _ heq)

/-- A changed data byte leaves the frame's checksum wrong for the new data, and a changed checksum is wrong for the old. -/
theorem exists_wireFrame_set (c : Config) (p : List Byte) {k : Nat} {v : Byte} (hlow : 2 ≤ k) (hhigh : k ≤ p.length + 2)
    (hne : (wireFrame c p)[k]? ≠ some v) :
    ∃ data chk, (wireFrame c p).set k v = c.stx :: BitVec.ofNat 8 data.length :: data ++ [chk, c.etx] ∧
      data.length = p.length ∧ chk ≠ checksum c.alg data := by
  obtain ⟨i, rfl⟩ := Nat.exists_eq_add_of_le hlow
  rcases Nat.lt_or_ge i p.length with hi | hi
  · rw [getElem?_wireFrame_data c p i hi] at hne
    refine ⟨p.set i v, checksum c.alg p, ?_, List.length_set, checksum_set_ne c.alg hi fun heq => hne (congrArg some heq)⟩
    simp [wireFrame, Nat.add_comm 2 i, List.set_append_left _ _ hi]
  · have hi : i = p.length := by omega
    subst hi
    rw [Nat.add_comm, getElem?_wireFrame_chk] at hne
    refine ⟨p, v, ?_, rfl, fun heq => hne (congrArg some heq.symm)⟩
    simp [wireFrame, Nat.add_comm 2, List.set_append_right]

/-- Settles O56: the receiver takes the changed frame to its end, and the two checksums differ. -/
theorem oneCorruptedByteIsAnError : Obligations.OneCorruptedByteIsAnError := by
  rintro tx tx' rx _ k v rfl hpos hmax henc hlink hmax' hs hlow hhigh hne
  rw [frame_eq_wireFrame_of_link hpos hmax henc hlink] at hne ⊢
  rw [← tx.length_payload] at hpos hmax' hhigh ⊢
  obtain ⟨data, chk, hframe, hlen, hchk⟩ := exists_wireFrame_set rx.cfg tx.payload hlow hhigh hne
  rw [hframe, ← hlen]
  rw [← hlen] at hpos hmax'
  obtain ⟨u, last, hfeed, hout⟩ := feed_frame hs hpos hmax' chk rx.cfg.etx
  obtain ⟨rfl, hstate, hack⟩ := hout.badChecksum rfl hchk
  exact ⟨u, hfeed, hstate, hack⟩

end Sys2Proof.Machine
end

section
/-! Host access (R170 to R172): NOP, the register map that RDREG reads, and ILLEGAL. -/

namespace Sys2Proof.Machine

/-! ### NOP and ILLEGAL (R170, R172) -/

/-- Settles O12. -/
theorem nopKeepsTheState : Obligations.NopKeepsTheState :=
  ⟨opField_commandWord _ _ _, fun s => ⟨_, rfl, rfl, sameState_respond s _⟩⟩

/-- Settles O13: a reserved word and the command of a reserved row both run as ILLEGAL. -/
theorem reservedWordsAnswerIllegal : Obligations.ReservedWordsAnswerIllegal := by
  refine fun s => ⟨fun w hw => ?_, fun i hi => ?_⟩
  · rw [runWord_of_reserved hw]
    exact illegalCommand_answers s
  · rcases hi with rfl | rfl | rfl | rfl | rfl <;> exact illegalCommand_answers s

/-! ### The fields of STATUS (R36, R77) -/

theorem State.statusByte_state (s : State) : s.statusByte.extractLsb' 0 3 = s.rxState.code :=
  BitVec.extractLsb'_append_eq_right

theorem State.statusByte_frameReady (s : State) : s.statusByte.getLsbD 3 = s.frameReady := by
  simp only [State.statusByte, BitVec.getLsbD_append]
  simp

theorem State.statusByte_sendAck (s : State) : s.statusByte.getLsbD 4 = s.sendAck := by
  simp only [State.statusByte, BitVec.getLsbD_append]
  simp

theorem State.statusByte_reserved (s : State) : s.statusByte.extractLsb' 5 3 = 0 := by
  ext k hk
  simp only [State.statusByte, BitVec.getElem_extractLsb', BitVec.getLsbD_append]
  simp [show ¬ 5 + k < 3 by omega, show ¬ 5 + k - 3 < 1 by omega, show ¬ 5 + k - 3 - 1 < 1 by omega]

/-! ### The register map (R36) -/

/-- An index selects the register of its number. -/
theorem State.readReg_of_toNat (s : State) {i : Index} {n : Nat} (h : i.toNat = n) :
    s.readReg i = s.readReg (BitVec.ofNat 9 n) := by
  rw [← h, BitVec.ofNat_toNat, BitVec.setWidth_eq]

theorem State.readReg_reserved (s : State) {i : Index} (h : 0x00C ≤ i.toNat) : s.readReg i = none := by
  unfold State.readReg
  split
  case h_13 => rfl
  all_goals omega

theorem State.readReg_flenLo (s : State) : s.readReg 0x006 = some (BitVec.ofNat 8 (s.fLen.toNat % 256)) := by
  refine congrArg some (BitVec.eq_of_toNat_eq ?_)
  simp

/-- FLEN has 9 bits, so FLEN_HI is 0 or 1. -/
theorem State.readReg_flenHi (s : State) : s.readReg 0x007 = some (BitVec.ofNat 8 (s.fLen.toNat / 256)) := by
  have := s.fLen.isLt
  refine congrArg some (BitVec.eq_of_toNat_eq ?_)
  simp only [BitVec.toNat_setWidth, BitVec.extractLsb'_toNat, BitVec.toNat_ofNat, Nat.shiftRight_eq_div_pow]
  omega

/-! ### RDREG (R171) -/

theorem execRdreg_mapped {i : Index} {s : State} {v : Byte} (h : s.readReg i = some v) :
    execRdreg i s = .next { s with resp := some ⟨.ok, v⟩ } := by
  simp only [execRdreg, h, respond]

theorem execRdreg_reserved {i : Index} {s : State} (h : s.readReg i = none) : execRdreg i s = invalidParam s := by
  simp only [execRdreg, h]

/-- RDREG answers what the register map holds at the index, and writes no state. -/
theorem execRdreg_answers (i : Index) (s : State) :
    ∃ t, execRdreg i s = .next t ∧ SameState s t ∧ (∀ v, s.readReg i = some v → t.resp = some ⟨.ok, v⟩) ∧
      (s.readReg i = none → t.resp = some Response.invalid) := by
  cases h : s.readReg i with
  | none =>
    obtain ⟨t, ht, hresp, hsame⟩ := invalidParam_answers s
    exact ⟨t, (execRdreg_reserved h).trans ht, hsame, nofun, fun _ => hresp⟩
  | some v =>
    exact ⟨_, execRdreg_mapped h, sameState_respond s _, fun _ hv => congrArg (Option.map (Response.mk .ok)) hv, nofun⟩

/-- Settles O20: each index of R36 selects its register, and the answer follows the register map. -/
theorem rdregAnswersTheRegisterMap : Obligations.RdregAnswersTheRegisterMap := by
  intro s i
  obtain ⟨t, ht, hsame, hok, hinvalid⟩ := execRdreg_answers i s
  have reg {n : Nat} {v : Byte} (hv : s.readReg (BitVec.ofNat 9 n) = some v) (hi : i.toNat = n) : t.resp = some ⟨.ok, v⟩ :=
    hok v ((s.readReg_of_toNat hi).trans hv)
  have alg : i.toNat = 0x00B → t.resp = some ⟨.ok, s.cfg.alg.code⟩ := reg rfl
  refine ⟨opField_commandWord _ _ _, t, ht, hsame, fun hi => ⟨s.statusByte, reg rfl hi, ?_⟩, reg rfl, reg rfl, reg rfl,
    reg rfl, reg rfl, reg s.readReg_flenLo, reg s.readReg_flenHi,
    fun hi => ⟨_, reg rfl hi, toNat_ofNat_of_le_maxData s.cfg le_rfl⟩, reg rfl, reg rfl, fun hi hx => ?_, fun hi hx => ?_,
    fun hi => hinvalid (s.readReg_reserved hi)⟩
  · exact ⟨s.statusByte_state ▸ codeOfState_code _, s.statusByte_frameReady, s.statusByte_sendAck, s.statusByte_reserved⟩
  · rw [alg hi, hx]; rfl
  · rw [alg hi, hx]; rfl

end Sys2Proof.Machine
end

section
/-! Exceptions (60_exceptions.md): no step stops (R205, R247), an error is precise (R204), and an idle port changes nothing (R220). -/

namespace Sys2Proof.Machine

/-! ### Every command completes (R205, R247) -/

theorem execRdrx_completes (k : Index) (s : State) : ∃ t, execRdrx k s = .next t := by
  rcases Nat.lt_or_ge k.toNat s.cfg.maxData with hk | hk
  · exact ⟨_, execRdrx_inside k s hk⟩
  · exact ⟨_, execRdrx_outside k s hk⟩

theorem execWrtx_completes (k : Index) (b : Byte) (s : State) : ∃ t, execWrtx k b s = .next t := by
  rcases Nat.lt_or_ge k.toNat s.cfg.maxData with hk | hk
  · exact ⟨_, execWrtx_inside k b s hk⟩
  · exact ⟨_, execWrtx_outside k b s hk⟩

theorem execEnc_completes (s : State) : ∃ t, execEnc s = .next t := by
  cases hl : legalLength s.cfg s.txLen.toNat with
  | true => exact ⟨_, execEnc_legal s hl⟩
  | false => exact ⟨_, execEnc_illegal s hl⟩

theorem execChk_completes (s : State) : ∃ t, execChk s = .next t := by
  rcases Nat.lt_or_ge s.cfg.maxData s.txLen.toNat with hlen | hlen
  · exact ⟨_, execChk_illegal s hlen⟩
  · exact ⟨_, execChk_legal s hlen⟩

/-- PB and RDF need the invariants; every other command checks its own index or length, or makes no access. -/
theorem exec_completes (i : Instr) {s : State} (h : Inv s) : ∃ t, exec i s = .next t := by
  cases i with
  | pb b => exact execPb_completes b s h.rxCnt_lt_maxData
  | rdf k => exact execRdf_completes k s h.fLen_le_maxFrame
  | rdreg k =>
    obtain ⟨t, ht, -⟩ := execRdreg_answers k s
    exact ⟨t, ht⟩
  | rdrx k => exact execRdrx_completes k s
  | wrtx k b => exact execWrtx_completes k b s
  | enc => exact execEnc_completes s
  | chk => exact execChk_completes s
  | nop | clrf | init | setlen | reservedB | reservedC | reservedD | reservedE | reservedF => exact ⟨_, rfl⟩

theorem runWord_completes (w : CommandWord) {s : State} (h : Inv s) : ∃ t, runWord w s = .next t := by
  obtain ⟨i, hi⟩ := runWord_eq_exec w s
  rw [hi]
  exact exec_completes i h

/-- Settles O38, by what stands at the port; the work is `exec_completes`. -/
theorem noStepStops : Obligations.NoStepStops := by
  intro s h
  cases hp : s.port with
  | nil => exact ⟨_, step_idle s hp⟩
  | cons input rest =>
    cases input with
    | rst => exact ⟨_, step_rst s rest hp⟩
    | command w =>
      rw [step_command s w rest hp]
      exact runWord_completes w (h.withPort rest)

/-! ### Errors are precise (R204) -/

/-- A path that writes state is answered neither INVALID_PARAM nor ILLEGAL_CMD. -/
theorem Effect.sameState_of_refused {i : Instr} {s t : State} (he : Effect i s t) {r : Response} (hr : t.resp = some r)
    (hrefused : r.result = .invalidParam ∨ r.result = .illegalCmd) : SameState s t := by
  cases he with
  | answer _ _ r' => exact sameState_respond s (some r')
  | _ =>
    cases hr
    simp at hrefused

/-- ERROR is answered by one path only, the last byte of a frame that PB rejects. -/
theorem Effect.pb_messageError_of_error {i : Instr} {s t : State} (he : Effect i s t) {r : Response} (hr : t.resp = some r)
    (herror : r.result = .error) : (∃ b, i = .pb b) ∧ t = { s with rxState := .messageError, resp := some r } := by
  cases he with
  | pbError b =>
    cases hr
    exact ⟨⟨b, rfl⟩, rfl⟩
  | answer _ _ _ only =>
    cases hr
    simpa [herror] using only.result
  | _ =>
    cases hr
    cases herror

/-- Settles O42: a refusal only answers, and the state after an ERROR is the state before with RXSTATE and the response replaced. -/
theorem errorsArePrecise : Obligations.ErrorsArePrecise := by
  intro i s t r h hr
  have he := exec_effect i s t h
  refine ⟨he.sameState_of_refused hr, fun herror => ?_⟩
  obtain ⟨hpb, rfl⟩ := he.pb_messageError_of_error hr herror
  exact ⟨hpb, rfl, ⟨rfl, rfl, rfl, rfl⟩, ⟨rfl, rfl⟩, fun _ => rfl, ⟨rfl, fun _ => rfl, rfl, fun _ => rfl⟩, he.sameSurroundings⟩

/-! ### The idle port (R220) -/

/-- Settles O3: the idle step only takes the response away. -/
theorem idlePortKeepsTheState : Obligations.IdlePortKeepsTheState :=
  fun s hport => ⟨s.idle, step_idle s hport, sameState_respond s none, rfl⟩

end Sys2Proof.Machine
end

section
/-! Reset and runs (70_reset_and_hazards.md): the state that power-on and the reset input give (R230, R231), a link of unequal checksum
algorithms (R235), and runs over any words (R247). -/

namespace Sys2Proof.Machine

/-! ### Runs complete (R247) -/

theorem runWord_keeps_inv {w : CommandWord} {s t : State} (hinv : Inv s) (h : runWord w s = .next t) : Inv t := by
  obtain ⟨i, -, he⟩ := runWord_effect h
  exact he.inv hinv

theorem runWord_responds {w : CommandWord} {s t : State} (h : runWord w s = .next t) : ∃ r, t.resp = some r := by
  obtain ⟨i, -, he⟩ := runWord_effect h
  exact he.exists_resp

/-- The invariants carry the induction: they let each word complete, and hold again after it. -/
theorem runWords_completes (ws : List CommandWord) {s : State} (hinv : Inv s) :
    ∃ rs t, runWords ws s = .next (rs, t) ∧ rs.length = ws.length := by
  induction ws generalizing s with
  | nil => exact ⟨[], s, rfl, rfl⟩
  | cons w ws ih =>
    obtain ⟨t, hw⟩ := runWord_completes w hinv
    obtain ⟨r, hr⟩ := runWord_responds hw
    obtain ⟨rs, u, hrest, hlen⟩ := ih (runWord_keeps_inv hinv hw)
    exact ⟨r :: rs, u, runWords_cons_of_step hw hr hrest, congrArg (· + 1) hlen⟩

/-- Settles O39: power-on meets the invariants. -/
theorem everyRunCompletes : Obligations.EveryRunCompletes :=
  fun c ws => runWords_completes ws (inv_powerOn c)

/-! ### Unequal checksum algorithms (R235) -/

/-- Settles O59: to a receiver with the same markers, the frame is one whose checksum byte comes from the sender's fold. -/
theorem unequalAlgorithmsGiveAChecksumError : Obligations.UnequalAlgorithmsGiveAChecksumError := by
  intro c s p hs hstx hetx hpos hmax
  rw [wireFrame, ← hstx, ← hetx]
  obtain ⟨u, last, hfeed, hout⟩ := feed_frame hs hpos hmax (checksum c.alg p) s.cfg.etx
  refine ⟨u, last, hfeed, fun hne => ?_, fun heq => ?_⟩
  · exact (hout.badChecksum rfl hne).1
  · exact (hout.success rfl heq).1

/-! ### The state after reset (R230, R231) -/

theorem State.readReg_status_eq_zero {s : State} (hstate : s.rxState = .waitStart) (hready : s.frameReady = false)
    (hack : s.sendAck = false) : s.readReg 0x000 = some 0x00 := by
  have hstatus : s.statusByte = 0x00 := by
    rw [State.statusByte, hstate, hready, hack]
    decide
  exact congrArg some hstatus

/-- R231's values do not depend on the count of resets or on the inputs waiting, in which power-on and the reset input differ. -/
theorem resetValues_resetState (c : Config) (n : Nat) (inputs : List PortInput) :
    ResetValues { State.powerOn c with resets := n, port := inputs } where
  rxState := rfl
  rxLen := rfl
  rxCnt := rfl
  rxRchk := rfl
  sendAck := rfl
  frameReady := rfl
  rxCchk := rfl
  txLen := rfl
  fLen := rfl
  stateO := rfl
  frameReadyO := rfl
  sendAckO := rfl
  msgReadyO := rfl
  msgErrorO := rfl
  status := State.readReg_status_eq_zero rfl rfl rfl
  frameUnreadable i := ⟨_, execRdf_outside i _ (Nat.zero_le _), rfl⟩

theorem resetValues_powerOn (c : Config) : ResetValues (State.powerOn c) := resetValues_resetState c 0 []

theorem resetValues_takeReset (s : State) : ResetValues s.takeReset := resetValues_resetState s.cfg _ _

/-- Settles O1. -/
theorem resetGivesTheTablesValues : Obligations.ResetGivesTheTablesValues :=
  ⟨fun c => ⟨resetValues_powerOn c, rfl⟩, ⟨resetValues_powerOn Config.standard, rfl⟩,
    fun s => ⟨resetValues_takeReset s, s.takeReset_cfg⟩⟩

/-! ### The reset input (R230, U1) -/

/-- The reset input leaves nothing written in any buffer, so every entry reads as the free value of the new reset. -/
theorem State.byteAt_takeReset (s : State) (sp : Space) (i : Nat) :
    s.takeReset.byteAt sp i = Config.unwrittenByte (s.resets + 1) sp i := by
  cases sp <;> rfl

/-- Settles O2: the step takes the reset input at the state that has the rest of the port. -/
theorem resetInputIsOneStep : Obligations.ResetInputIsOneStep := by
  intro s rest hport
  exact ⟨_, step_rst s rest hport, resetValues_takeReset _, State.takeReset_cfg _, State.takeReset_port _, State.takeReset_resp _,
    State.byteAt_takeReset _⟩

end Sys2Proof.Machine
end
